-- ==== Sys2Proof/Config.lean ====
section
/-! DEFINITION. The open parameters of the core (spec 00_scope.md R8), "which a model takes as arguments", and the host's
parameters outside the core. The spec gives every parameter of the core a default; the model keeps all their settings. -/

namespace Sys2Proof

/-- `BIR_TAKEN_NEXT` (R8, R72, 92 D3): the address fetched after a taken BIR. -/
inductive BirTakenNext where
  /-- `addr12`, the default: the source's stated net effect (90_conflicts.md C2). -/
  | target
  /-- `addr12 - 1`: the source's step list read literally. -/
  | targetMinus1
deriving DecidableEq, Repr

/-- `SHIFT_GE8` (R8, R87, R88, 92 D2): LSH and RSH by an amount 8..255. -/
inductive ShiftGe8 where
  /-- Saturate to zero, the default. -/
  | zero
  /-- Shift by the amount modulo 8. -/
  | mod8
deriving DecidableEq, Repr

/-- The four open parameters of the core (R8). They are fixed for a machine; `State` carries them because `exec` and `step`
take a state and nothing else (log entry 1). -/
structure Config where
  /-- `CAPACITY`: the number of words of the program store. -/
  capacity : Nat
  /-- `CALL_STACK_DEPTH`: `none` is unbounded (R30). -/
  callStackDepth : Option Nat
  /-- `BIR_TAKEN_NEXT`. -/
  birTakenNext : BirTakenNext
  /-- `SHIFT_GE8`. -/
  shiftGe8 : ShiftGe8
deriving DecidableEq, Repr

/-- Every parameter at the default of R8: the "full configuration" of 4096 words, an unbounded call stack, `Target`, `Zero`
(log entry 2). -/
def Config.full : Config :=
  { capacity := 4096, callStackDepth := none, birTakenNext := .target, shiftGe8 := .zero }

/-- `LOADER_ODD` (R38, 92 D14): what the loader does with a trailing odd byte. -/
inductive LoaderOdd where
  | dropTrailing
  | fail
deriving DecidableEq, Repr

/-- `LOADER_OVERLONG` (R38, 92 D14): what the loader does with more than `2 * CAPACITY` bytes. -/
inductive LoaderOverlong where
  | truncate
  | reject
deriving DecidableEq, Repr

/-- The host's parameters, outside the core (R8): "which change only what the core is given or what the renderer draws".
The spec leaves all three open, so nothing here has a default. -/
structure HostParams where
  /-- `LOADER_ODD`. -/
  loaderOdd : LoaderOdd
  /-- `LOADER_OVERLONG`. -/
  loaderOverlong : LoaderOverlong
  /-- `RENDER_ON_HALT` (R113, 92 D15): whether a frame is drawn after a tick that faults or terminates. -/
  renderOnHalt : Bool
deriving DecidableEq, Repr

end Sys2Proof
end

