-- ==== Sys2Proof/Word.lean ====
section
/-! DEFINITION. The word types of RISC-Z (spec 00_scope.md R7, R11 to R13): bytes, 16-bit instruction words, 12-bit
program-store addresses, flat 16-bit data addresses, and register indices. Bits are numbered from 0 upward. -/

namespace Sys2Proof

/-- A byte: register values, data-memory bytes, pages, offsets, `imm8` (R7, R12). Always read unsigned. -/
abbrev Byte := BitVec 8

/-- A 16-bit instruction word, the unit of the program store (R53, R35). -/
abbrev Word := BitVec 16

/-- A 12-bit program-store word address: `addr12` and the entries of the call stack (R57, R29). -/
abbrev Addr12 := BitVec 12

/-- A flat data-memory address `{ActivePage, off}` (R40). -/
abbrev DataAddr := BitVec 16

/-- A register index 0..15: "every index 0..15 is encodable and no other index exists" (R19). -/
abbrev RegIdx := Fin 16

end Sys2Proof
end

