-- ==== Sys2Proof/Syntax.lean ====
section
/-! DEFINITION. The instructions of RISC-Z as syntax: one constructor per row of spec/opcode_table.json (30_encoding.md R59).
Operands stand in the field order `r1`, `r2`, `r3` of R54. Fields an instruction does not use are don't-care (R60) and are
no part of its syntax (log entry 9). -/

namespace Sys2Proof

/-- The six compare modes of CMP (45_compare.md R99). -/
inductive CompareMode where
  | eq
  | gt
  | lt
  | ge
  | le
  | ne
deriving DecidableEq, Repr

/-- The RISC-Z instructions. -/
inductive Instr where
  /-- ADD, opcode 0x0 (R80): destination, source A, source B. -/
  | add (r1 r2 r3 : RegIdx)
  /-- SUB, opcode 0x1 (R81): destination, minuend, subtrahend. -/
  | sub (r1 r2 r3 : RegIdx)
  /-- DIV, opcode 0x2 (R82): destination, dividend, divisor. -/
  | div (r1 r2 r3 : RegIdx)
  /-- AND, opcode 0x3 (R83). -/
  | and (r1 r2 r3 : RegIdx)
  /-- ORR, opcode 0x4 (R84). -/
  | orr (r1 r2 r3 : RegIdx)
  /-- XOR, opcode 0x5 (R85). -/
  | xor (r1 r2 r3 : RegIdx)
  /-- NOT, opcode 0x6 (R86): destination, source. -/
  | not (r1 r2 : RegIdx)
  /-- LSH, opcode 0x7 (R87): destination, value, shift amount. -/
  | lsh (r1 r2 r3 : RegIdx)
  /-- RSH, opcode 0x8 (R88): destination, value, shift amount. -/
  | rsh (r1 r2 r3 : RegIdx)
  /-- RET, opcode 0x9 (R89). -/
  | ret
  /-- BIR, opcode 0xA (R90): absolute word target. -/
  | bir (addr12 : Addr12)
  /-- LDM, opcode 0xB (R95): destination, offset register. -/
  | ldm (r1 r2 : RegIdx)
  /-- STR, opcode 0xC (R96): offset register, value register. -/
  | str (r1 r2 : RegIdx)
  /-- LDI, opcode 0xD (R98): destination, literal byte. -/
  | ldi (r1 : RegIdx) (imm8 : Byte)
  /-- CMP, opcode 0xE, mode 0 (R99). -/
  | cmpEq (r2 r3 : RegIdx)
  /-- CMP, opcode 0xE, mode 1 (R99). -/
  | cmpGt (r2 r3 : RegIdx)
  /-- CMP, opcode 0xE, mode 2 (R99). -/
  | cmpLt (r2 r3 : RegIdx)
  /-- CMP, opcode 0xE, mode 3 (R99). -/
  | cmpGe (r2 r3 : RegIdx)
  /-- CMP, opcode 0xE, mode 4 (R99). -/
  | cmpLe (r2 r3 : RegIdx)
  /-- CMP, opcode 0xE, mode 5 (R99). -/
  | cmpNe (r2 r3 : RegIdx)
  /-- SPG, opcode 0xF (R100): page-source register. -/
  | spg (r1 : RegIdx)
deriving DecidableEq, Repr

/-- The instruction's mnemonic in spec/opcode_table.json, letter for letter. -/
def Instr.mnemonic : Instr → String
  | .add _ _ _ => "ADD"
  | .sub _ _ _ => "SUB"
  | .div _ _ _ => "DIV"
  | .and _ _ _ => "AND"
  | .orr _ _ _ => "ORR"
  | .xor _ _ _ => "XOR"
  | .not _ _ => "NOT"
  | .lsh _ _ _ => "LSH"
  | .rsh _ _ _ => "RSH"
  | .ret => "RET"
  | .bir _ => "BIR"
  | .ldm _ _ => "LDM"
  | .str _ _ => "STR"
  | .ldi _ _ => "LDI"
  | .cmpEq _ _ => "CMP.EQ"
  | .cmpGt _ _ => "CMP.GT"
  | .cmpLt _ _ => "CMP.LT"
  | .cmpGe _ _ => "CMP.GE"
  | .cmpLe _ _ => "CMP.LE"
  | .cmpNe _ _ => "CMP.NE"
  | .spg _ => "SPG"

end Sys2Proof
end

