-- ==== Sys2Proof/WellFormed.lean ====
section
/-! DEFINITION. What must hold of a configuration and of an instruction before the machine's rules speak of it.

An instruction needs no check of its own: a register operand is a `Fin 16`, `imm8` a byte, `addr12` 12 bits, exactly the
field widths of 30_encoding.md R54, every index 0..15 is encodable (10_state.md R19), a word is never illegal "because it
names register 0" (R63), and the illegal compare modes have no constructor. So an ill-formed instruction cannot be written.
The checks of this file are those on the parameters of the core (00_scope.md R8). -/

namespace Sys2Proof

/-- "`CAPACITY` must satisfy 1 ≤ `CAPACITY` ≤ 4096" (R8). Every other setting of the parameters is allowed. -/
abbrev Config.WellFormed (c : Config) : Prop :=
  1 ≤ c.capacity ∧ c.capacity ≤ 4096

end Sys2Proof
end

