-- ==== Sys2Proof/Decode.lean ====
section
/-! DEFINITION. Field extraction, the decoder (total on the 65,536 words, rejecting by name), the encoder, and the opcode
table of spec/opcode_table.json as data (spec 30_encoding.md). -/

namespace Sys2Proof

/-- The fields every word is cut into (R54). They overlap: `addr12 = {r1, r2, r3}`, `imm8 = {r2, r3}`. -/
structure Fields where
  opcode : Fin 16
  r1 : RegIdx
  r2 : RegIdx
  r3 : RegIdx
  addr12 : Addr12
  imm8 : Byte
deriving DecidableEq, Repr

/-- Step 2 of the tick: every field is extracted from every word, "always fully decoded regardless of opcode"; this never
faults (R55). -/
def decodeFields (w : Word) : Fields :=
  { opcode := (w.extractLsb 15 12).toFin
    r1 := (w.extractLsb 11 8).toFin
    r2 := (w.extractLsb 7 4).toFin
    r3 := (w.extractLsb 3 0).toFin
    addr12 := w.extractLsb 11 0
    imm8 := w.extractLsb 7 0 }

/-- What a word is: an instruction, or one of the two checks of R62 that can make a word illegal. -/
inductive Decoded where
  /-- A legal word. -/
  | instr (i : Instr)
  /-- A CMP whose mode field is 6..15 (R62): executing it raises `Fault(IllegalCompareMode)`. -/
  | illegalCompareMode (mode : Fin 16)
  /-- An opcode with no table entry. The table assigns all 16 opcodes, so no word decodes to this (R62, 90 C3); it is kept,
  as the spec keeps it, so that a smaller table has a name for it. -/
  | illegalOpcode (opcode : Fin 16)
deriving DecidableEq, Repr

/-- Whether the word is legal, "decodes to an instruction" (R63). -/
def Decoded.legal : Decoded → Bool
  | .instr _ => true
  | .illegalCompareMode _ => false
  | .illegalOpcode _ => false

/-- The compare mode named by CMP's raw field `r1` (R58, R99; log entry 11): 0 eq, 1 gt, 2 lt, 3 ge, 4 le, 5 ne. -/
def compareModeOf (m : Fin 16) : Option CompareMode :=
  match m.val with
  | 0 => some .eq
  | 1 => some .gt
  | 2 => some .lt
  | 3 => some .ge
  | 4 => some .le
  | 5 => some .ne
  | _ => none

/-- The CMP row of a mode. -/
def cmpInstr (m : CompareMode) (r2 r3 : RegIdx) : Instr :=
  match m with
  | .eq => .cmpEq r2 r3
  | .gt => .cmpGt r2 r3
  | .lt => .cmpLt r2 r3
  | .ge => .cmpGe r2 r3
  | .le => .cmpLe r2 r3
  | .ne => .cmpNe r2 r3

/-- "Only CMP looks at another field to decide legality (its mode)" (40_tick.md R69). -/
def decodeCmp (f : Fields) : Decoded :=
  match compareModeOf f.r1 with
  | some m => .instr (cmpInstr m f.r2 f.r3)
  | none => .illegalCompareMode f.r1

/-- The opcode map of R59; fields an instruction does not use have no effect (R60). -/
def dispatchOpcode (f : Fields) : Decoded :=
  match f.opcode.val with
  | 0x0 => .instr (.add f.r1 f.r2 f.r3)
  | 0x1 => .instr (.sub f.r1 f.r2 f.r3)
  | 0x2 => .instr (.div f.r1 f.r2 f.r3)
  | 0x3 => .instr (.and f.r1 f.r2 f.r3)
  | 0x4 => .instr (.orr f.r1 f.r2 f.r3)
  | 0x5 => .instr (.xor f.r1 f.r2 f.r3)
  | 0x6 => .instr (.not f.r1 f.r2)
  | 0x7 => .instr (.lsh f.r1 f.r2 f.r3)
  | 0x8 => .instr (.rsh f.r1 f.r2 f.r3)
  | 0x9 => .instr .ret
  | 0xA => .instr (.bir f.addr12)
  | 0xB => .instr (.ldm f.r1 f.r2)
  | 0xC => .instr (.str f.r1 f.r2)
  | 0xD => .instr (.ldi f.r1 f.imm8)
  | 0xE => decodeCmp f
  | 0xF => .instr (.spg f.r1)
  | _ => .illegalOpcode f.opcode

/-- The decoder: one program-store word, one instruction (R53). -/
def decode (w : Word) : Decoded :=
  dispatchOpcode (decodeFields w)

/-- The register form of R61: `w = opcode * 4096 + r1 * 256 + r2 * 16 + r3`. -/
def registerForm (opcode r1 r2 r3 : Nat) : Word :=
  BitVec.ofNat 16 (opcode * 4096 + r1 * 256 + r2 * 16 + r3)

/-- The encoder (R61). "Don't-care fields are written as 0 in this spec's encodings." -/
def encode : Instr → Word
  | .add r1 r2 r3 => registerForm 0x0 r1 r2 r3
  | .sub r1 r2 r3 => registerForm 0x1 r1 r2 r3
  | .div r1 r2 r3 => registerForm 0x2 r1 r2 r3
  | .and r1 r2 r3 => registerForm 0x3 r1 r2 r3
  | .orr r1 r2 r3 => registerForm 0x4 r1 r2 r3
  | .xor r1 r2 r3 => registerForm 0x5 r1 r2 r3
  | .not r1 r2 => registerForm 0x6 r1 r2 0
  | .lsh r1 r2 r3 => registerForm 0x7 r1 r2 r3
  | .rsh r1 r2 r3 => registerForm 0x8 r1 r2 r3
  | .ret => registerForm 0x9 0 0 0
  | .bir addr12 => BitVec.ofNat 16 (0xA000 + addr12.toNat)
  | .ldm r1 r2 => registerForm 0xB r1 r2 0
  | .str r1 r2 => registerForm 0xC r1 r2 0
  | .ldi r1 imm8 => BitVec.ofNat 16 (0xD000 + r1.val * 256 + imm8.toNat)
  | .cmpEq r2 r3 => registerForm 0xE 0 r2 r3
  | .cmpGt r2 r3 => registerForm 0xE 1 r2 r3
  | .cmpLt r2 r3 => registerForm 0xE 2 r2 r3
  | .cmpGe r2 r3 => registerForm 0xE 3 r2 r3
  | .cmpLe r2 r3 => registerForm 0xE 4 r2 r3
  | .cmpNe r2 r3 => registerForm 0xE 5 r2 r3
  | .spg r1 => registerForm 0xF r1 0 0

/-- The bits of an instruction's word that mean something: its opcode and the fields R59 says it uses. All others are
don't-care (R60). -/
def Instr.usedBits : Instr → Word
  | .not _ _ => 0xFFF0#16
  | .ret => 0xF000#16
  | .ldm _ _ => 0xFFF0#16
  | .str _ _ => 0xFFF0#16
  | .spg _ => 0xFF00#16
  | .add _ _ _ => 0xFFFF#16
  | .sub _ _ _ => 0xFFFF#16
  | .div _ _ _ => 0xFFFF#16
  | .and _ _ _ => 0xFFFF#16
  | .orr _ _ _ => 0xFFFF#16
  | .xor _ _ _ => 0xFFFF#16
  | .lsh _ _ _ => 0xFFFF#16
  | .rsh _ _ _ => 0xFFFF#16
  | .bir _ => 0xFFFF#16
  | .ldi _ _ => 0xFFFF#16
  | .cmpEq _ _ => 0xFFFF#16
  | .cmpGt _ _ => 0xFFFF#16
  | .cmpLt _ _ => 0xFFFF#16
  | .cmpGe _ _ => 0xFFFF#16
  | .cmpLe _ _ => 0xFFFF#16
  | .cmpNe _ _ => 0xFFFF#16

/-- One row of spec/opcode_table.json: a word `w` belongs to it when `w &&& mask = bits`. -/
structure TableRow where
  mnemonic : String
  mask : Word
  bits : Word
deriving DecidableEq, Repr

/-- spec/opcode_table.json's 21 rows: mnemonic, mask, match. -/
def opcodeTable : List TableRow :=
  [ ⟨"ADD", 0xF000#16, 0x0000#16⟩, ⟨"SUB", 0xF000#16, 0x1000#16⟩, ⟨"DIV", 0xF000#16, 0x2000#16⟩,
    ⟨"AND", 0xF000#16, 0x3000#16⟩, ⟨"ORR", 0xF000#16, 0x4000#16⟩, ⟨"XOR", 0xF000#16, 0x5000#16⟩,
    ⟨"NOT", 0xF000#16, 0x6000#16⟩, ⟨"LSH", 0xF000#16, 0x7000#16⟩, ⟨"RSH", 0xF000#16, 0x8000#16⟩,
    ⟨"RET", 0xF000#16, 0x9000#16⟩, ⟨"BIR", 0xF000#16, 0xA000#16⟩, ⟨"LDM", 0xF000#16, 0xB000#16⟩,
    ⟨"STR", 0xF000#16, 0xC000#16⟩, ⟨"LDI", 0xF000#16, 0xD000#16⟩, ⟨"CMP.EQ", 0xFF00#16, 0xE000#16⟩,
    ⟨"CMP.GT", 0xFF00#16, 0xE100#16⟩, ⟨"CMP.LT", 0xFF00#16, 0xE200#16⟩, ⟨"CMP.GE", 0xFF00#16, 0xE300#16⟩,
    ⟨"CMP.LE", 0xFF00#16, 0xE400#16⟩, ⟨"CMP.NE", 0xFF00#16, 0xE500#16⟩, ⟨"SPG", 0xF000#16, 0xF000#16⟩ ]

/-- The word whose bits are `w`, of which the table gives `nbits`; the bits above them are 0. -/
def tableWord (nbits w : Nat) : Word :=
  BitVec.ofNat 16 (w % 2 ^ nbits)

/-- The instruction the decoder reads from the word `w`, numbered as spec/opcode_table.json numbers its bits. -/
def decodeTableWord (nbits w : Nat) : Option Instr :=
  match decode (tableWord nbits w) with
  | .instr i => some i
  | .illegalCompareMode _ => none
  | .illegalOpcode _ => none

end Sys2Proof
end

