-- ==== Sys2Proof/Machine/State.lean ====
section
/-! DEFINITION. The state of the RISC-Z core as plain data (spec 10_state.md; 20_memory.md R35, R39), and reset (R34, R118). -/

namespace Sys2Proof.Machine

/-- The fault kinds (60_exceptions.md R101). -/
inductive FaultKind where
  /-- Code 1: an opcode with no table entry. Never raised by this core (90 C3). -/
  | illegalOpcode
  /-- Code 2: CMP with mode 6..15. -/
  | illegalCompareMode
  /-- Code 3: DIV whose divisor register reads 0. -/
  | divideByZero
  /-- Code 4: a taken BIR that finds a finite `CALL_STACK_DEPTH` reached. -/
  | callStackOverflow
  /-- Code 5: a taken `BIR 0` under `BIR_TAKEN_NEXT = TargetMinus1`. -/
  | pcUnderflow
deriving DecidableEq, Repr

/-- The fault record `{kind, pc, word, value}` (R102). `value` is a plain number: a mode field, an opcode, a register index,
an `addr12`, or 0. -/
structure FaultRecord where
  kind : FaultKind
  /-- `fetch_pc`, the address of the faulting instruction. -/
  pc : Nat
  /-- The 16-bit instruction word. -/
  word : Word
  /-- The offending value. -/
  value : Nat
deriving DecidableEq, Repr

/-- The run status (R31). `terminated` and `faulted` are final until reset. -/
inductive Status where
  | running
  | terminated
  | faulted (rec : FaultRecord)
deriving DecidableEq, Repr

/-- Data memory: (flat address, byte) pairs, addresses strictly rising, no byte 0 listed; an unlisted address reads 0, the
reset contents of every byte (R42). -/
abbrev Memory := List Host.Cell

/-- The program store: (word address, word) pairs in the same form; an unlisted address reads 0x0000 (R36). -/
abbrev ProgramStore := List (Nat × Word)

/-- The whole machine: R19 to R34, data memory (R39), program store (R35), and the parameters of R8. -/
structure State where
  /-- The 16 slots of the register file. Slot 0 is stored and never read (R20, R32). -/
  regs : Vector Byte 16
  /-- The program counter, counted in words; "a natural number 0..max(CAPACITY, 4095)" with no wrap (R22, R23, 92 D5). -/
  pc : Nat
  /-- The call stack; "top is the last element" (R29). -/
  stack : List Addr12
  /-- The comparison flag (R25). -/
  flag : Bool
  /-- The page LDM and STR address (R27). -/
  activePage : Byte
  /-- Whether the core still executes ticks (R31). -/
  status : Status
  /-- Data memory (R39). -/
  dataMemory : Memory
  /-- The program store, written by the loader before the first tick and never by a tick (R35, R52). -/
  programStore : ProgramStore
  /-- The MODEL's own field, no state of the machine: the parameters of R8. No step changes it (log entry 1). -/
  config : Config
deriving DecidableEq, Repr

/-- The reasons of the interface's `fault` outcome. There is none: a fault of RISC-Z is a state, `Status.faulted`, that the
spec describes whole (40_tick.md R70, 60_exceptions.md R102, R103), so the step that takes it answers a next state. Safe: no
state is left without a meaning (log entry 3). -/
inductive Fault where
deriving DecidableEq, Repr

/-- The reasons of the interface's `refused` outcome. -/
inductive Refusal where
  /-- An instruction that has no meaning yet. Raised by no arm of `exec`: every row of the opcode table has its meaning.
  Safe: a refusal stops the run and claims nothing. -/
  | notModelled (mnemonic : String)
deriving DecidableEq, Repr

/-- The reset state of a core with parameters `c` whose program store holds `p` (R34, R118): "all mutable entities initialize
to zero/empty"; the program store "is not changed by reset". -/
def State.resetWith (c : Config) (p : ProgramStore) : State :=
  { regs := Vector.replicate 16 0#8
    pc := 0
    stack := []
    flag := false
    activePage := 0#8
    status := .running
    dataMemory := []
    programStore := p
    config := c }

/-- The machine right after reset, with the default parameters of R8 and nothing loaded (every word 0x0000, R36); a program is
loaded from outside (log entries 2 and 7). -/
def State.reset : State :=
  State.resetWith Config.full []

end Sys2Proof.Machine
end

