-- ==== Sys2Proof/Machine/Ops.lean ====
section
/-! DEFINITION. The named operations over the state: the sparse stores, the register file, data memory, the control
primitives of 00_scope.md R14 to R16, raising a fault (60_exceptions.md R102, R103), the end-of-tick check (40_tick.md R73),
and reset. Every meaning reads and writes the state through these. -/

namespace Sys2Proof.Machine

/-! ### Sparse stores: data memory and the program store -/

/-- What address `a` holds: its listed value, or 0 (R36, R42). -/
def Sparse.read {w : Nat} (m : List (Nat × BitVec w)) (a : Nat) : BitVec w :=
  match m with
  | [] => 0#w
  | (b, v) :: rest => if b = a then v else Sparse.read rest a

/-- The store without an entry for `a`. -/
def Sparse.erase {w : Nat} (m : List (Nat × BitVec w)) (a : Nat) : List (Nat × BitVec w) :=
  m.filter (fun c => c.1 != a)

/-- The entry `(a, v)` put before the first higher address. -/
def Sparse.insert {w : Nat} (m : List (Nat × BitVec w)) (a : Nat) (v : BitVec w) : List (Nat × BitVec w) :=
  match m with
  | [] => [(a, v)]
  | (b, u) :: rest => if b < a then (b, u) :: Sparse.insert rest a v else (a, v) :: (b, u) :: rest

/-- The store with `v` at `a`, in canonical form: writing 0, what an unlisted address reads as, removes the entry. -/
def Sparse.write {w : Nat} (m : List (Nat × BitVec w)) (a : Nat) (v : BitVec w) : List (Nat × BitVec w) :=
  if v = 0#w then Sparse.erase m a else Sparse.insert (Sparse.erase m a) a v

/-- The canonical form of a store of `size` cells: addresses strictly rising and below `size`, no entry 0. -/
abbrev Sparse.wf {w : Nat} (size : Nat) (m : List (Nat × BitVec w)) : Prop :=
  m.Pairwise (fun c d => c.1 < d.1) ∧ ∀ c ∈ m, c.1 < size ∧ c.2 ≠ 0#w

/-- The canonical form of data memory: 65,536 bytes (R39). -/
abbrev Memory.wf (m : Memory) : Prop :=
  Sparse.wf 65536 m

/-- The canonical form of a program store of `capacity` words (R35). -/
abbrev ProgramStore.wf (capacity : Nat) (p : ProgramStore) : Prop :=
  Sparse.wf capacity p

/-- The program-store word at word address `a` (R35). -/
def State.programWord (s : State) (a : Nat) : Word :=
  Sparse.read s.programStore a

/-! ### The register file -/

/-- `x[i]`, the source's `read(i)`: "0 if `i = 0`, and otherwise the byte stored in slot `i`" (R14, R20). -/
def State.readReg (s : State) (r : RegIdx) : Byte :=
  if r = 0 then 0#8 else s.regs[r]

/-- `x[i] <- v`, the source's `write(i, v)`: "stores the byte `v` in slot `i`, including when `i = 0`" (R14, R20). -/
def State.writeReg (s : State) (r : RegIdx) (v : Byte) : State :=
  { s with regs := s.regs.set r v }

/-! ### Data memory -/

/-- The flat address `{page, off} = page * 256 + off` (R40). -/
def dataAddr (page off : Byte) : DataAddr :=
  page ++ off

/-- The data-memory byte at a flat address. -/
def State.byteAt (s : State) (a : DataAddr) : Byte :=
  Sparse.read s.dataMemory a.toNat

/-- `DataMemory[page][off]` (R39). -/
def State.dataByte (s : State) (page off : Byte) : Byte :=
  s.byteAt (dataAddr page off)

/-- The flat address LDM and STR form: the active page and an offset (R39, R40). -/
def State.activeAddr (s : State) (off : Byte) : DataAddr :=
  dataAddr s.activePage off

/-- `MemRead(off, 1)`: the byte `DataMemory[ActivePage][off]` (R15). -/
def State.memRead (s : State) (off : Byte) : Byte :=
  s.byteAt (s.activeAddr off)

/-- The state with the byte `v` at a flat address. -/
def State.storeByte (s : State) (a : DataAddr) (v : Byte) : State :=
  { s with dataMemory := Sparse.write s.dataMemory a.toNat v }

/-- `MemWrite(off, 1, v)`: `DataMemory[ActivePage][off] <- v` (R15). -/
def State.memWrite (s : State) (off v : Byte) : State :=
  s.storeByte (s.activeAddr off) v

/-! ### Control primitives -/

/-- `pc <- target` (R16). -/
def State.setPc (s : State) (target : Nat) : State :=
  { s with pc := target }

/-- Step 3 of the tick, `pc <- fetch_pc + 1`, on the state the tick began with (40_tick.md R68; log entry 19). -/
def State.advance (s : State) : State :=
  s.setPc (s.pc + 1)

/-- `flag <- b` (R16). -/
def State.setFlag (s : State) (b : Bool) : State :=
  { s with flag := b }

/-- `ActivePage <- p` (R100). -/
def State.setActivePage (s : State) (p : Byte) : State :=
  { s with activePage := p }

/-- `status <- st` (R68, R103). -/
def State.setStatus (s : State) (st : Status) : State :=
  { s with status := st }

/-- `push(v)`: appends `v` to the top of the call stack (R16). -/
def State.push (s : State) (v : Addr12) : State :=
  { s with stack := s.stack ++ [v] }

/-- The top entry of the call stack; `none` when `empty()` (R16). -/
def State.top (s : State) : Option Addr12 :=
  s.stack.getLast?

/-- The state with the top entry removed, the other half of `pop()` (R16). -/
def State.dropTop (s : State) : State :=
  { s with stack := s.stack.dropLast }

/-- "`CALL_STACK_DEPTH` is finite and length(stack) = `CALL_STACK_DEPTH`" (R90; log entry 20). -/
def State.stackFull (s : State) : Bool :=
  s.config.callStackDepth == some s.stack.length

/-! ### Faults, the end of a tick, reset -/

/-- The numeric code of a fault kind (R101). -/
def FaultKind.code : FaultKind → Nat
  | .illegalOpcode => 1
  | .illegalCompareMode => 2
  | .divideByZero => 3
  | .callStackOverflow => 4
  | .pcUnderflow => 5

/-- `raise Fault(kind, {pc: fetch_pc, word, value})` in the state the tick began with: the faulting instruction writes
nothing, `status <- Faulted(rec)`, and the pc register keeps the sequential value `fetch_pc + 1` (R70, R102, R103; log
entry 4). Every fault of the machine is raised here. -/
def State.raiseFault (s : State) (kind : FaultKind) (word : Word) (value : Nat) : State :=
  s.advance.setStatus (.faulted { kind := kind, pc := s.pc, word := word, value := value })

/-- The end of a tick: "if `pc ≥ CAPACITY` then `status <- Terminated`", at the end of every tick that does not fault
(R70, R73). -/
def State.finishTick (s : State) : State :=
  if s.status = .running ∧ s.config.capacity ≤ s.pc then s.setStatus .terminated else s

/-- The `reset` input of R10: every piece of state to its value of R34, from any status; "the program store is not changed
by reset" (R118; log entry 22). There is no return from a fault (R108); this alone leaves a final status. -/
def State.applyReset (s : State) : State :=
  State.resetWith s.config s.programStore

end Sys2Proof.Machine
end

