-- ==== Sys2Proof/Machine/Operands.lean ====
section
/-! DEFINITION. The operand forms (30_encoding.md R54, R58; 41_alu.md R77) and the byte functions of the ALU that BitVec does
not already name. Every form reads its operands before it writes (00_scope.md R17) and moves pc on by one (R72). -/

namespace Sys2Proof.Machine

/-- The execution multiplexer's write: the byte `v` to slot `r1`, and the sequential pc (R69, R72). -/
def writeBack (r1 : RegIdx) (v : Byte) (s : State) : State :=
  s.advance.writeReg r1 v

/-- The three-operand ALU form: `x[r1] <- f(x[r2], x[r3])` (R77). -/
def aluThree (f : Byte → Byte → Byte) (r1 r2 r3 : RegIdx) (s : State) : State :=
  writeBack r1 (f (s.readReg r2) (s.readReg r3)) s

/-- The two-operand ALU form, NOT's: `x[r1] <- f(x[r2])` (R77, R86). -/
def aluTwo (f : Byte → Byte) (r1 r2 : RegIdx) (s : State) : State :=
  writeBack r1 (f (s.readReg r2)) s

/-- LSH's result (R87): `(v * 2^n) mod 256` for `n < 8`; for `n` in 8..255 it is 0, or, under `Mod8`, the shift by
`n mod 8`. -/
def shiftLeft (setting : ShiftGe8) (v n : Byte) : Byte :=
  if n.toNat < 8 then BitVec.ofNat 8 (v.toNat * 2 ^ n.toNat)
  else match setting with
    | .zero => 0#8
    | .mod8 => BitVec.ofNat 8 (v.toNat * 2 ^ (n.toNat % 8))

/-- RSH's result (R88): `v / 2^n`, zeros entering at bit 7; amounts 8..255 as for LSH. -/
def shiftRight (setting : ShiftGe8) (v n : Byte) : Byte :=
  if n.toNat < 8 then BitVec.ofNat 8 (v.toNat / 2 ^ n.toNat)
  else match setting with
    | .zero => 0#8
    | .mod8 => BitVec.ofNat 8 (v.toNat / 2 ^ (n.toNat % 8))

/-- DIV's quotient for a divisor that is not 0: unsigned, truncated (R82). -/
def quotient (a b : Byte) : Byte :=
  BitVec.ofNat 8 (a.toNat / b.toNat)

end Sys2Proof.Machine
end

