-- ==== Sys2Proof/Machine/Alu.lean ====
section
/-! DEFINITION. The ALU family (41_alu.md R80 to R88). Each meaning runs in the state the tick began with: its pc is
`fetch_pc` (log entry 19). None writes the flag, the call stack, ActivePage or memory (R78). -/

namespace Sys2Proof.Machine

/-- ADD (R80): `x[r1] <- (x[r2] + x[r3]) mod 256`. -/
def execAdd (r1 r2 r3 : RegIdx) (s : State) : Host.Outcome State Fault Refusal :=
  .next (aluThree (fun a b => a + b) r1 r2 r3 s)

/-- SUB (R81): `x[r1] <- (x[r2] - x[r3]) mod 256`. -/
def execSub (r1 r2 r3 : RegIdx) (s : State) : Host.Outcome State Fault Refusal :=
  .next (aluThree (fun a b => a - b) r1 r2 r3 s)

/-- DIV (R82): raises `DivideByZero`, with the register index `r3` as the value (R102), when `x[r3] = 0`; otherwise
`x[r1] <- x[r2] / x[r3]`. The record's word is this instruction's word: DIV has no don't-care bit (log entry 8). -/
def execDiv (r1 r2 r3 : RegIdx) (s : State) : Host.Outcome State Fault Refusal :=
  if s.readReg r3 = 0#8 then .next (s.raiseFault .divideByZero (encode (.div r1 r2 r3)) r3.val)
  else .next (aluThree quotient r1 r2 r3 s)

/-- AND (R83). -/
def execAnd (r1 r2 r3 : RegIdx) (s : State) : Host.Outcome State Fault Refusal :=
  .next (aluThree (fun a b => a &&& b) r1 r2 r3 s)

/-- ORR (R84). -/
def execOrr (r1 r2 r3 : RegIdx) (s : State) : Host.Outcome State Fault Refusal :=
  .next (aluThree (fun a b => a ||| b) r1 r2 r3 s)

/-- XOR (R85). -/
def execXor (r1 r2 r3 : RegIdx) (s : State) : Host.Outcome State Fault Refusal :=
  .next (aluThree (fun a b => a ^^^ b) r1 r2 r3 s)

/-- NOT (R86): `x[r1] <- ~x[r2]`. -/
def execNot (r1 r2 : RegIdx) (s : State) : Host.Outcome State Fault Refusal :=
  .next (aluTwo (fun a => ~~~a) r1 r2 s)

/-- LSH (R87), amounts 8..255 by the parameter `SHIFT_GE8`. -/
def execLsh (r1 r2 r3 : RegIdx) (s : State) : Host.Outcome State Fault Refusal :=
  .next (aluThree (shiftLeft s.config.shiftGe8) r1 r2 r3 s)

/-- RSH (R88), logical, amounts 8..255 by the parameter `SHIFT_GE8`. -/
def execRsh (r1 r2 r3 : RegIdx) (s : State) : Host.Outcome State Fault Refusal :=
  .next (aluThree (shiftRight s.config.shiftGe8) r1 r2 r3 s)

end Sys2Proof.Machine
end

