-- ==== Sys2Proof/Machine/Flags.lean ====
section
/-! DEFINITION. The comparison flag, the only flag of the machine (10_state.md R25, 41_alu.md R78), and CMP's computation of
it (45_compare.md R99). -/

namespace Sys2Proof.Machine

/-- The condition of a compare mode on two unsigned bytes (R99; log entry 10). -/
def compareHolds (m : CompareMode) (a b : Byte) : Bool :=
  match m with
  | .eq => a.toNat == b.toNat
  | .gt => b.toNat < a.toNat
  | .lt => a.toNat < b.toNat
  | .ge => b.toNat ≤ a.toNat
  | .le => a.toNat ≤ b.toNat
  | .ne => a.toNat != b.toNat

/-- CMP's effect for a legal mode: the flag and the sequential pc (R99, R72). -/
def compareInto (m : CompareMode) (r2 r3 : RegIdx) (s : State) : State :=
  s.advance.setFlag (compareHolds m (s.readReg r2) (s.readReg r3))

end Sys2Proof.Machine
end

