-- ==== Sys2Proof/Machine/Compare.lean ====
section
/-! DEFINITION. The compare family (45_compare.md R99): one meaning per legal mode, and the fault of modes 6..15. -/

namespace Sys2Proof.Machine

/-- CMP mode 0 (R99): `flag <- (x[r2] = x[r3])`. -/
def execCmpEq (r2 r3 : RegIdx) (s : State) : Host.Outcome State Fault Refusal :=
  .next (compareInto .eq r2 r3 s)

/-- CMP mode 1 (R99): `flag <- (x[r2] > x[r3])`, unsigned. -/
def execCmpGt (r2 r3 : RegIdx) (s : State) : Host.Outcome State Fault Refusal :=
  .next (compareInto .gt r2 r3 s)

/-- CMP mode 2 (R99): `flag <- (x[r2] < x[r3])`, unsigned. -/
def execCmpLt (r2 r3 : RegIdx) (s : State) : Host.Outcome State Fault Refusal :=
  .next (compareInto .lt r2 r3 s)

/-- CMP mode 3 (R99): `flag <- (x[r2] >= x[r3])`, unsigned. -/
def execCmpGe (r2 r3 : RegIdx) (s : State) : Host.Outcome State Fault Refusal :=
  .next (compareInto .ge r2 r3 s)

/-- CMP mode 4 (R99): `flag <- (x[r2] <= x[r3])`, unsigned. -/
def execCmpLe (r2 r3 : RegIdx) (s : State) : Host.Outcome State Fault Refusal :=
  .next (compareInto .le r2 r3 s)

/-- CMP mode 5 (R99): `flag <- (x[r2] ≠ x[r3])`. -/
def execCmpNe (r2 r3 : RegIdx) (s : State) : Host.Outcome State Fault Refusal :=
  .next (compareInto .ne r2 r3 s)

/-- CMP with an illegal mode (R62, R99): raises `IllegalCompareMode` with the mode as the value; "for modes 6..15 nothing is
written". `word` is the word fetched. -/
def execIllegalCompareMode (mode : Fin 16) (word : Word) (s : State) : Host.Outcome State Fault Refusal :=
  .next (s.raiseFault .illegalCompareMode word mode.val)

/-- An opcode with no table entry (R62, R101): raises `IllegalOpcode` with the opcode as the value (R102). No word of this
core decodes to it. -/
def execIllegalOpcode (opcode : Fin 16) (word : Word) (s : State) : Host.Outcome State Fault Refusal :=
  .next (s.raiseFault .illegalOpcode word opcode.val)

end Sys2Proof.Machine
end

