-- ==== Sys2Proof/Machine/Control.lean ====
section
/-! DEFINITION. The control family (42_control.md R89 to R92): the only instructions that write pc other than by the
sequential increment, and the only ones that touch the call stack. -/

namespace Sys2Proof.Machine

/-- RET (R89): pops the call stack into pc, "no further adjustment"; on an empty stack nothing but the sequential pc. -/
def execRet (s : State) : Host.Outcome State Fault Refusal :=
  match s.top with
  | some target => .next (s.dropTop.setPc target.toNat)
  | none => .next s.advance

/-- A taken BIR's effect: push the target and go to the next address (R90). -/
def branchTo (addr12 : Addr12) (next : Nat) (s : State) : State :=
  (s.push addr12).setPc next

/-- BIR (R90, R91). Flag 1: `CallStackOverflow` on a full stack, checked first (R104); `PcUnderflow` on target 0 under
`TargetMinus1`; otherwise the push and the transfer. Flag 0: pc stays at `fetch_pc`, the spin (R75). The records' word is this
instruction's word: BIR has no don't-care bit (log entry 8). -/
def execBir (addr12 : Addr12) (s : State) : Host.Outcome State Fault Refusal :=
  if s.flag then
    if s.stackFull then .next (s.raiseFault .callStackOverflow (encode (.bir addr12)) addr12.toNat)
    else match s.config.birTakenNext with
      | .target => .next (branchTo addr12 addr12.toNat s)
      | .targetMinus1 =>
        if addr12 = 0#12 then .next (s.raiseFault .pcUnderflow (encode (.bir addr12)) 0)
        else .next (branchTo addr12 (addr12.toNat - 1) s)
  else .next (s.setPc s.pc)

end Sys2Proof.Machine
end

