-- ==== Sys2Proof/Machine/Immediate.lean ====
section
/-! DEFINITION. The immediate family (44_immediate.md R98). -/

namespace Sys2Proof.Machine

/-- LDI (R98): `x[r1] <- imm8`; no register is read and no extension applies. -/
def execLdi (r1 : RegIdx) (imm8 : Byte) (s : State) : Host.Outcome State Fault Refusal :=
  .next (writeBack r1 imm8 s)

end Sys2Proof.Machine
end

