-- ==== Sys2Proof/Machine/LoadStore.lean ====
section
/-! DEFINITION. The memory family (43_memory_ops.md R95 to R97): one byte at `(ActivePage, x[rA])`, the one addressing mode. -/

namespace Sys2Proof.Machine

/-- LDM (R95): `x[r1] <- DataMemory[ActivePage][x[r2]]`. -/
def execLdm (r1 r2 : RegIdx) (s : State) : Host.Outcome State Fault Refusal :=
  .next (writeBack r1 (s.memRead (s.readReg r2)) s)

/-- STR (R96): `DataMemory[ActivePage][x[r1]] <- x[r2]`; `r1` is the offset register. -/
def execStr (r1 r2 : RegIdx) (s : State) : Host.Outcome State Fault Refusal :=
  .next (s.advance.memWrite (s.readReg r1) (s.readReg r2))

end Sys2Proof.Machine
end

