-- ==== Sys2Proof/Machine/Page.lean ====
section
/-! DEFINITION. The page family (46_page.md R100). -/

namespace Sys2Proof.Machine

/-- SPG (R100): `ActivePage <- x[r1]`. -/
def execSpg (r1 : RegIdx) (s : State) : Host.Outcome State Fault Refusal :=
  .next (s.advance.setActivePage (s.readReg r1))

end Sys2Proof.Machine
end

