-- ==== Sys2Proof/Machine/Dispatch.lean ====
section
/-! DEFINITION. exec: one arm per instruction (40_tick.md R69, "each opcode has exactly one arm"). -/

namespace Sys2Proof.Machine

def exec (i : Instr) (s : State) : Host.Outcome State Fault Refusal :=
  match i with
  | .add r1 r2 r3 => Sys2Proof.Machine.execAdd r1 r2 r3 s
  | .sub r1 r2 r3 => Sys2Proof.Machine.execSub r1 r2 r3 s
  | .div r1 r2 r3 => Sys2Proof.Machine.execDiv r1 r2 r3 s
  | .and r1 r2 r3 => Sys2Proof.Machine.execAnd r1 r2 r3 s
  | .orr r1 r2 r3 => Sys2Proof.Machine.execOrr r1 r2 r3 s
  | .xor r1 r2 r3 => Sys2Proof.Machine.execXor r1 r2 r3 s
  | .not r1 r2 => Sys2Proof.Machine.execNot r1 r2 s
  | .lsh r1 r2 r3 => Sys2Proof.Machine.execLsh r1 r2 r3 s
  | .rsh r1 r2 r3 => Sys2Proof.Machine.execRsh r1 r2 r3 s
  | .ret => Sys2Proof.Machine.execRet s
  | .bir addr12 => Sys2Proof.Machine.execBir addr12 s
  | .ldm r1 r2 => Sys2Proof.Machine.execLdm r1 r2 s
  | .str r1 r2 => Sys2Proof.Machine.execStr r1 r2 s
  | .ldi r1 imm8 => Sys2Proof.Machine.execLdi r1 imm8 s
  | .cmpEq r2 r3 => Sys2Proof.Machine.execCmpEq r2 r3 s
  | .cmpGt r2 r3 => Sys2Proof.Machine.execCmpGt r2 r3 s
  | .cmpLt r2 r3 => Sys2Proof.Machine.execCmpLt r2 r3 s
  | .cmpGe r2 r3 => Sys2Proof.Machine.execCmpGe r2 r3 s
  | .cmpLe r2 r3 => Sys2Proof.Machine.execCmpLe r2 r3 s
  | .cmpNe r2 r3 => Sys2Proof.Machine.execCmpNe r2 r3 s
  | .spg r1 => Sys2Proof.Machine.execSpg r1 s

end Sys2Proof.Machine
end

