-- ==== Sys2Proof/Machine/Fetch.lean ====
section
/-! DEFINITION. Instruction fetch (40_tick.md R68 step 1; 20_memory.md R35, R45) and placing a word where the next tick
fetches it. -/

namespace Sys2Proof.Machine

/-- Whether the next tick fetches: the core is Running (R31, R71) and pc is inside the store (R68, R45). -/
def State.fetches (s : State) : Bool :=
  s.status = .running ∧ s.pc < s.config.capacity

/-- Step 1 of the tick: the word at `ProgramStore[pc]`, fetched whole (R35, R43). -/
def State.fetchWord (s : State) : Word :=
  s.programWord s.pc

/-- The program store with the word `w` at address `a`: what the loader writes, never a tick (R35, R52). -/
def State.placeWord (s : State) (a : Nat) (w : Word) : State :=
  { s with programStore := Sparse.write s.programStore a w }

end Sys2Proof.Machine
end

