-- ==== Sys2Proof/Machine/Step.lean ====
section
/-! DEFINITION. The tick (40_tick.md R67 to R73): fetch, decode, execute, the termination check. -/

namespace Sys2Proof.Machine

/-- Step 4 of the tick: the decoded instruction's arm, or the fault of an illegal word (R62, R69). -/
def executeDecoded (d : Decoded) (word : Word) (s : State) : Host.Outcome State Fault Refusal :=
  match d with
  | .instr i => exec i s
  | .illegalCompareMode mode => execIllegalCompareMode mode word s
  | .illegalOpcode opcode => execIllegalOpcode opcode word s

/-- The termination check on a step's outcome (R68, R73). -/
def finishOutcome (o : Host.Outcome State Fault Refusal) : Host.Outcome State Fault Refusal :=
  match o with
  | .next s => .next s.finishTick
  | .fault r => .fault r
  | .refused r => .refused r

/-- One tick (R68). A halted state does not change (R71; log entry 3). A Running state whose pc is past the store fetches
nothing (R45) and terminates (R73); no tick leaves such a state (log entry 6). -/
def step (s : State) : Host.Outcome State Fault Refusal :=
  if s.fetches then finishOutcome (executeDecoded (decode s.fetchWord) s.fetchWord s)
  else .next s.finishTick

/-- `s` with the word `w` (bits above `nbits` zero) stored where the next tick fetches: the program-store word at pc. This
stands for the loader's work (R36; log entry 7). -/
def State.withFetchWord (s : State) (nbits w : Nat) : State :=
  s.placeWord s.pc (tableWord nbits w)

end Sys2Proof.Machine
end

