-- ==== Sys2Proof/Machine/Idioms.lean ====
section
/-! DEFINITION. The idioms of 30_encoding.md R66, "each a plain sequence of real instructions", and running such a
sequence. -/

namespace Sys2Proof.Machine

/-- `NOP`: `ADD r0, r0, r0` (0x0000), "advances pc only". -/
def idiomNop : List Instr :=
  [.add 0 0 0]

/-- `MOV rD, rA`: `ADD rD, rA, r0`. -/
def idiomMov (rD rA : RegIdx) : List Instr :=
  [.add rD rA 0]

/-- `JMP t`: `CMP eq, r0, r0` ; `BIR t`: "sets flag to 1, then branches to t and pushes t". -/
def idiomJmp (t : Addr12) : List Instr :=
  [.cmpEq 0 0, .bir t]

/-- The instructions of a list executed one after the other. -/
def execAll (is : List Instr) (s : State) : Host.Outcome State Fault Refusal :=
  match is with
  | [] => .next s
  | i :: rest =>
    match exec i s with
    | .next t => execAll rest t
    | .fault r => .fault r
    | .refused r => .refused r

end Sys2Proof.Machine
end

