-- ==== Sys2Proof/Machine/Loader.lean ====
section
/-! DEFINITION. The loader's contract with the core (20_memory.md R36 to R38) and the order of a start
(70_reset_and_hazards.md R120, R121; 60_exceptions.md R105, R114). The loader is host software, outside the core (R4). -/

namespace Sys2Proof.Machine

/-- "Big-endian pairing": two consecutive bytes make a word, the first byte the high one (R37). A last byte without a
partner makes no word (91 N10). -/
def pairBytes : List Byte → List Word
  | hi :: lo :: rest => (hi ++ lo) :: pairBytes rest
  | [_] => []
  | [] => []

/-- The words the loader builds from a program file, or `none` where it fails or rejects (R38). Both checks look at the
file as it is given (log entry 15). -/
def loadWords (h : HostParams) (capacity : Nat) (bytes : List Byte) : Option (List Word) :=
  if h.loaderOdd = .fail ∧ bytes.length % 2 = 1 then none
  else if h.loaderOverlong = .reject ∧ 2 * capacity < bytes.length then none
  else some ((pairBytes bytes).take capacity)

/-- `ProgramStore[base..]` filled in order with the words (R36). -/
def fillStore (base : Nat) (words : List Word) (p : ProgramStore) : ProgramStore :=
  match words with
  | [] => p
  | w :: rest => fillStore (base + 1) rest (Sparse.write p base w)

/-- The program store that holds the words from address 0 on, and 0x0000 beyond them (R36; log entry 14). -/
def storeOfWords (words : List Word) : ProgramStore :=
  fillStore 0 words []

/-- Steps 1 to 3 of R121: an unreadable file (`none`) or a loader that fails gives no machine and no tick (R105, R38);
otherwise the core is at reset with the program loaded. -/
def boot (h : HostParams) (c : Config) (file : Option (List Byte)) : Option State :=
  match file with
  | none => none
  | some bytes =>
    match loadWords h c.capacity bytes with
    | none => none
    | some words => some (State.resetWith c (storeOfWords words))

end Sys2Proof.Machine
end

