-- ==== Sys2Proof/Machine/Renderer.lean ====
section
/-! DEFINITION. The frame renderer's contract with the core (60_exceptions.md R112, R113; 20_memory.md R48). It reads page
255 between ticks, has no registers and never writes memory. It is outside the core (R4). -/

namespace Sys2Proof.Machine

/-- One cell of the 16 x 16 grid: its place and its channels before scaling. -/
structure Pixel where
  row : Fin 16
  col : Fin 16
  red : Fin 8
  green : Fin 8
  blue : Fin 4
deriving DecidableEq, Repr

/-- The red channel in 0..1: "scaled 0–7 to 0.0–1.0", read as linear (R112, 92 D20; log entry 16). -/
def Pixel.redLevel (p : Pixel) : ℚ := (p.red.val : ℚ) / 7

/-- The green channel in 0..1 (R112). -/
def Pixel.greenLevel (p : Pixel) : ℚ := (p.green.val : ℚ) / 7

/-- The blue channel in 0..1 (R112). -/
def Pixel.blueLevel (p : Pixel) : ℚ := (p.blue.val : ℚ) / 3

/-- The page the renderer reads (R48). -/
def framePage : Byte := 255#8

/-- The cell of offset `o` and byte `v`: row `o / 16`, column `o mod 16`, red `v[7:5]`, green `v[4:2]`, blue `v[1:0]` (R112). -/
def pixelOf (o v : Byte) : Pixel :=
  { row := (o.extractLsb 7 4).toFin
    col := (o.extractLsb 3 0).toFin
    red := (v.extractLsb 7 5).toFin
    green := (v.extractLsb 4 2).toFin
    blue := (v.extractLsb 1 0).toFin }

/-- One frame: the 256 bytes of page 255, row-major (R112). -/
def frame (s : State) : List Pixel :=
  (List.range 256).map (fun o => pixelOf (BitVec.ofNat 8 o) (s.dataByte framePage (BitVec.ofNat 8 o)))

/-- The frame drawn after the tick that led from `before` to `after` (R113): one after each tick; after a tick that faults or
terminates by the host parameter `RENDER_ON_HALT` (92 D15); none where no tick ran. -/
def frameAfterTick (h : HostParams) (before after : State) : Option (List Pixel) :=
  if before.status = .running then
    if after.status = .running ∨ h.renderOnHalt = true then some (frame after) else none
  else none

end Sys2Proof.Machine
end

