-- ==== Sys2Proof/Machine/Ports.lean ====
section
/-! DEFINITION. The core's abstract block interface (00_scope.md R10, the spec's own choice by 92 D12): what stands on its
outputs during the tick that begins in a state. Each interface acts once per tick at most; where it does not act the model
says `none` (log entry 18). -/

namespace Sys2Proof.Machine

/-- The one data-memory access of an instruction, if it makes one (20_memory.md R45). -/
inductive DataAccess where
  | read (addr : DataAddr)
  | write (addr : DataAddr) (value : Byte)
deriving DecidableEq, Repr

/-- LDM reads one byte, STR writes one, "every other instruction: none" (R45, R95, R96). -/
def dataAccess (i : Instr) (s : State) : Option DataAccess :=
  match i with
  | .ldm _ r2 => some (.read (s.activeAddr (s.readReg r2)))
  | .str r1 r2 => some (.write (s.activeAddr (s.readReg r1)) (s.readReg r2))
  | .add _ _ _ => none
  | .sub _ _ _ => none
  | .div _ _ _ => none
  | .and _ _ _ => none
  | .orr _ _ _ => none
  | .xor _ _ _ => none
  | .not _ _ => none
  | .lsh _ _ _ => none
  | .rsh _ _ _ => none
  | .ret => none
  | .bir _ => none
  | .ldi _ _ => none
  | .cmpEq _ _ => none
  | .cmpGt _ _ => none
  | .cmpLt _ _ => none
  | .cmpGe _ _ => none
  | .cmpLe _ _ => none
  | .cmpNe _ _ => none
  | .spg _ => none

/-- The data-memory access of the tick that begins in `s`. -/
def tickAccess (s : State) : Option DataAccess :=
  if s.fetches then
    match decode s.fetchWord with
    | .instr i => dataAccess i s
    | .illegalCompareMode _ => none
    | .illegalOpcode _ => none
  else none

/-- The `status` output (R10). -/
inductive StatusPort where
  | running
  | terminated
  | faulted
deriving DecidableEq, Repr

/-- The interfaces of R10. -/
structure Ports where
  /-- `fetch_addr`: the index of the word fetched this tick. -/
  fetchAddr : Option Nat
  /-- `fetch_word`: the program-store word at `fetch_addr`. -/
  fetchWord : Option Word
  /-- `dmem_addr`: the data-memory byte addressed this tick. -/
  dmemAddr : Option DataAddr
  /-- `dmem_we`: 1 on the tick of a STR, else 0. -/
  dmemWe : Bool
  /-- `dmem_wdata`: the byte STR stores. -/
  dmemWdata : Option Byte
  /-- `dmem_rdata`: the byte at `dmem_addr`, read by LDM. -/
  dmemRdata : Option Byte
  /-- `status`. -/
  status : StatusPort
  /-- `fault_record`: valid when `status = Faulted`. -/
  faultRecord : Option FaultRecord
deriving DecidableEq, Repr

/-- The `status` output of a run status. -/
def Status.port : Status → StatusPort
  | .running => .running
  | .terminated => .terminated
  | .faulted _ => .faulted

/-- The record visible on `fault_record` (R102). -/
def Status.record : Status → Option FaultRecord
  | .running => none
  | .terminated => none
  | .faulted rec => some rec

/-- The address of a data access (R10). -/
def DataAccess.addr : DataAccess → DataAddr
  | .read a => a
  | .write a _ => a

/-- The byte a data access stores (R10). -/
def DataAccess.wdata : DataAccess → Option Byte
  | .read _ => none
  | .write _ v => some v

/-- The byte a data access reads, in the state the tick began with (R10). -/
def DataAccess.rdata (a : DataAccess) (s : State) : Option Byte :=
  match a with
  | .read addr => some (s.byteAt addr)
  | .write _ _ => none

/-- The interfaces during the tick that begins in `s`. -/
def ports (s : State) : Ports :=
  { fetchAddr := if s.fetches then some s.pc else none
    fetchWord := if s.fetches then some s.fetchWord else none
    dmemAddr := (tickAccess s).map DataAccess.addr
    dmemWe := ((tickAccess s).bind DataAccess.wdata).isSome
    dmemWdata := (tickAccess s).bind DataAccess.wdata
    dmemRdata := (tickAccess s).bind (fun a => a.rdata s)
    status := s.status.port
    faultRecord := s.status.record }

end Sys2Proof.Machine
end

