-- ==== Sys2Proof/Safety.lean ====
section
/-! DEFINITION. The terms statements about the machine use: the frame of an instruction, the invariant of the machine, what
an observer sees (70_reset_and_hazards.md R122), and what happens over several ticks (40_tick.md R74). -/

namespace Sys2Proof.Machine

/-! ### Frames -/

/-- Every register reads as before, but for `r`, which reads `v`, unless `r` is register 0, which reads 0 before and after
(10_state.md R20). Slot 0's hidden byte is not spoken of (R32). -/
abbrev RegistersExcept (r : RegIdx) (v : Byte) (s t : State) : Prop :=
  ∀ q : RegIdx, t.readReg q = if q = r ∧ q ≠ 0 then v else s.readReg q

/-- Every register reads as before. -/
abbrev SameRegisters (s t : State) : Prop :=
  ∀ q : RegIdx, t.readReg q = s.readReg q

/-- Every byte of data memory reads as before. -/
abbrev SameMemory (s t : State) : Prop :=
  ∀ a : DataAddr, t.byteAt a = s.byteAt a

/-- Every byte of data memory reads as before, but for the one at `a`, which reads `v`. -/
abbrev MemoryExcept (a : DataAddr) (v : Byte) (s t : State) : Prop :=
  t.byteAt a = v ∧ ∀ b : DataAddr, b ≠ a → t.byteAt b = s.byteAt b

/-- The control state other than pc and the call stack: flag, ActivePage, run status, program store, parameters. -/
structure SameControl (s t : State) : Prop where
  flag : t.flag = s.flag
  activePage : t.activePage = s.activePage
  status : t.status = s.status
  programStore : t.programStore = s.programStore
  config : t.config = s.config

/-- An instruction whose only effects are the sequential pc and the byte `v` in register `r`. -/
structure WritesRegisterOnly (r : RegIdx) (v : Byte) (s t : State) : Prop where
  registers : RegistersExcept r v s t
  pc : t.pc = s.pc + 1
  stack : t.stack = s.stack
  memory : SameMemory s t
  control : SameControl s t

/-- The faulting instruction "writes no register, flag, stack entry, ActivePage or memory byte" and the run status holds the
record (R70, R103). Nothing is said of the pc register: claims read the record (93 I5; log entry 4). -/
structure FaultsWith (rec : FaultRecord) (s t : State) : Prop where
  status : t.status = .faulted rec
  registers : SameRegisters s t
  flag : t.flag = s.flag
  stack : t.stack = s.stack
  activePage : t.activePage = s.activePage
  memory : SameMemory s t
  programStore : t.programStore = s.programStore
  config : t.config = s.config

/-- The register an instruction writes: "register writes come from ADD, SUB, DIV, AND, ORR, XOR, NOT, LSH, RSH, LDM and LDI,
always to the slot named by field `r1`" (R21); "no other opcode writes a register" (R69). -/
def destination : Instr → Option RegIdx
  | .add r1 _ _ => some r1
  | .sub r1 _ _ => some r1
  | .div r1 _ _ => some r1
  | .and r1 _ _ => some r1
  | .orr r1 _ _ => some r1
  | .xor r1 _ _ => some r1
  | .not r1 _ => some r1
  | .lsh r1 _ _ => some r1
  | .rsh r1 _ _ => some r1
  | .ret => none
  | .bir _ => none
  | .ldm r1 _ => some r1
  | .str _ _ => none
  | .ldi r1 _ => some r1
  | .cmpEq _ _ => none
  | .cmpGt _ _ => none
  | .cmpLt _ _ => none
  | .cmpGe _ _ => none
  | .cmpLe _ _ => none
  | .cmpNe _ _ => none
  | .spg _ => none

/-! ### The invariant of the machine -/

/-- A fault record that the state it stopped in bears out: it names a word of the store and what that word did there, with the
offending value of 60_exceptions.md R102. -/
def State.BearsOut (s : State) (rec : FaultRecord) : Prop :=
  rec.pc < s.config.capacity ∧ rec.word = s.programWord rec.pc ∧
  match rec.kind with
  | .illegalOpcode => False
  | .illegalCompareMode => ∃ m : Fin 16, decode rec.word = .illegalCompareMode m ∧ rec.value = m.val
  | .divideByZero =>
      ∃ r1 r2 r3 : RegIdx, decode rec.word = .instr (.div r1 r2 r3) ∧ s.readReg r3 = 0#8 ∧ rec.value = r3.val
  | .callStackOverflow =>
      ∃ a : Addr12, decode rec.word = .instr (.bir a) ∧ s.flag = true ∧
        s.config.callStackDepth = some s.stack.length ∧ rec.value = a.toNat
  | .pcUnderflow =>
      decode rec.word = .instr (.bir 0#12) ∧ s.flag = true ∧ s.config.birTakenNext = .targetMinus1 ∧ rec.value = 0

/-- What holds of the machine from reset on: legal parameters (R8), stores in canonical form, pc in its range (R23), a
Running pc inside the store and a Terminated pc past it (R68, R73), the call stack within its depth (R30), and a fault record
that the state bears out (R102). -/
structure State.Inv (s : State) : Prop where
  config : s.config.WellFormed
  dataMemory : Memory.wf s.dataMemory
  programStore : ProgramStore.wf s.config.capacity s.programStore
  pcRange : s.pc ≤ max s.config.capacity 4095
  pcRunning : s.status = .running → s.pc < s.config.capacity
  pcTerminated : s.status = .terminated → s.config.capacity ≤ s.pc
  stackDepth : ∀ d : Nat, s.config.callStackDepth = some d → s.stack.length ≤ d
  faultRecord : ∀ rec : FaultRecord, s.status = .faulted rec → s.BearsOut rec

/-! ### What an observer sees -/

/-- Two states that differ at most in the hidden byte of slot 0 (R20, R32). -/
structure State.SameButSlot0 (s t : State) : Prop where
  registers : SameRegisters s t
  pc : t.pc = s.pc
  stack : t.stack = s.stack
  flag : t.flag = s.flag
  activePage : t.activePage = s.activePage
  status : t.status = s.status
  dataMemory : t.dataMemory = s.dataMemory
  programStore : t.programStore = s.programStore
  config : t.config = s.config

/-- The observed results of a run that ended (R122): registers 1 to 15, the flag, ActivePage, the call stack, data memory,
and the fault record of a faulted run. Not slot 0, not the pc register. -/
structure Observation where
  registers : List Byte
  flag : Bool
  activePage : Byte
  stack : List Addr12
  dataMemory : Memory
  record : Option FaultRecord
deriving DecidableEq, Repr

/-- The observed results of a state, with a given record. -/
def State.shown (s : State) (rec : Option FaultRecord) : Observation :=
  { registers := (List.finRange 15).map (fun r => s.readReg r.succ)
    flag := s.flag
    activePage := s.activePage
    stack := s.stack
    dataMemory := s.dataMemory
    record := rec }

/-- What a state shows when the run has ended in it; `none` while it is Running, "a run that never ends has no end state"
(R122). -/
def State.observe (s : State) : Option Observation :=
  match s.status with
  | .running => none
  | .terminated => some (s.shown none)
  | .faulted rec => some (s.shown (some rec))

/-- A safe run's states: the core has not faulted (60_exceptions.md R103). A spinning BIR is safe and never ends (R75). -/
def State.Safe (s : State) : Prop :=
  ∀ rec : FaultRecord, s.status ≠ .faulted rec

/-! ### Several ticks -/

/-- The state after one tick (`step` answers no other outcome; the last two arms cannot be taken). -/
def tick (s : State) : State :=
  match step s with
  | .next t => t
  | .fault r => nomatch r
  | .refused _ => s

/-- The state after `k` ticks. -/
def ticks (k : Nat) (s : State) : State :=
  match k with
  | 0 => s
  | k + 1 => ticks k (tick s)

/-- The stores that `k` ticks make, oldest first: flat address and byte. -/
def storesOf (k : Nat) (s : State) : List (DataAddr × Byte) :=
  match k with
  | 0 => []
  | k + 1 =>
    match tickAccess s with
    | some (.write a v) => (a, v) :: storesOf k (tick s)
    | some (.read _) => storesOf k (tick s)
    | none => storesOf k (tick s)

/-- What the most recent store of the list to the address `a` stored, or `v` where the list has none. -/
def lastStored (a : DataAddr) (v : Byte) (stores : List (DataAddr × Byte)) : Byte :=
  match stores with
  | [] => v
  | (b, u) :: rest => lastStored a (if b = a then u else v) rest

/-- The tick that begins in the state is a taken BIR that does not fault (R90). -/
def State.pushesNow (s : State) : Bool :=
  s.fetches && match decode s.fetchWord with
    | .instr (.bir a) => s.flag && !s.stackFull && !(s.config.birTakenNext == .targetMinus1 && a == 0#12)
    | _ => false

/-- The tick that begins in the state is a RET on a non-empty stack (R89). -/
def State.popsNow (s : State) : Bool :=
  s.fetches && decode s.fetchWord == .instr .ret && !s.stack.isEmpty

/-- How many of `k` ticks execute a taken BIR that pushes (42_control.md R93). -/
def takenBirs (k : Nat) (s : State) : Nat :=
  match k with
  | 0 => 0
  | k + 1 => (if s.pushesNow then 1 else 0) + takenBirs k (tick s)

/-- How many of `k` ticks execute a RET that finds the stack non-empty (R93). -/
def poppingRets (k : Nat) (s : State) : Nat :=
  match k with
  | 0 => 0
  | k + 1 => (if s.popsNow then 1 else 0) + poppingRets k (tick s)

end Sys2Proof.Machine
end

