-- ==== Sys2Proof/Certificates/Slice0/Obligations.lean ====
section
/-! DEFINITION. The statements for the provers, from the numbered rules of spec/. A statement about an instruction gives the
next state of `exec`; one about the machine speaks of `step`, of `tick s` (the state `step` answers) and of `ticks k s`.
Where a clause rests on a decision the spec marks as its own (92_eei_decisions.md) or on the model's choice, the docstring
names it. -/

open Sys2Proof Sys2Proof.Machine

/-! ### Encoding -/

/-- 30_encoding.md R54, R61: decoding an instruction's word gives the instruction back, for every operand. -/
def Obligations.DecodeOfEncode : Prop :=
  ∀ i : Instr, decode (encode i) = .instr i

/-- 30_encoding.md R60 (decision D9, log entry 9): the bits an instruction does not use are don't-care. A word that decodes
to `i` has `i`'s used bits, and any word with the same used bits decodes to `i`. -/
def Obligations.DontCareBitsHaveNoEffect : Prop :=
  ∀ (w v : Word) (i : Instr), decode w = .instr i →
    encode i = w &&& i.usedBits ∧ (v &&& i.usedBits = w &&& i.usedBits → decode v = .instr i)

/-- 30_encoding.md R59 and spec/opcode_table.json (the rows' masks leave out unused fields, decision D9, and take CMP's mode
as the raw field `r1`, D18; log entries 9, 11): a word lies in a row of the table exactly when it decodes to an instruction
of the row's mnemonic. -/
def Obligations.OpcodeTableAgreesWithDecoder : Prop :=
  ∀ (w : Word) (row : TableRow), row ∈ opcodeTable →
    (w &&& row.mask = row.bits ↔ ∃ i : Instr, decode w = .instr i ∧ i.mnemonic = row.mnemonic)

/-- 30_encoding.md R62 (that the mode is the raw field `r1` is decision D18, log entry 11): the illegal words are
0xE600..0xEFFF, no opcode is illegal, a tick that executes an illegal word faults with `IllegalCompareMode`, and no tick
faults with `IllegalOpcode`. -/
def Obligations.IllegalWordsAreCompareModesAboveFive : Prop :=
  (∀ (w : Word) (m : Fin 16),
    decode w = .illegalCompareMode m ↔ 0xE600 ≤ w.toNat ∧ w.toNat ≤ 0xEFFF ∧ m.val = w.toNat / 256 % 16) ∧
  (∀ (w : Word) (op : Fin 16), decode w ≠ .illegalOpcode op) ∧
  (∀ (s : State) (m : Fin 16), s.fetches = true → decode s.fetchWord = .illegalCompareMode m →
    ∃ (t : State) (rec : FaultRecord),
      step s = .next t ∧ t.status = .faulted rec ∧ rec.kind = .illegalCompareMode) ∧
  (∀ (s : State) (rec : FaultRecord), s.status = .running → (tick s).status = .faulted rec → rec.kind ≠ .illegalOpcode)

/-- 30_encoding.md R63 (the spec's derivation from R60, R62, which rest on decisions D9 and D18; log entries 9, 11): 2,560
words are illegal and 62,976 decode to an instruction. -/
def Obligations.IllegalWordCount : Prop :=
  ((Finset.range 65536).filter (fun n => (decode (BitVec.ofNat 16 n)).legal = false)).card = 2560 ∧
  ((Finset.range 65536).filter (fun n => (decode (BitVec.ofNat 16 n)).legal = true)).card = 62976

/-- Words of 95_test_vectors.md section 2.1 decode as it lists. -/
def Obligations.ListedWordsDecode : Prop :=
  decode 0x0312#16 = .instr (.add 3 1 2) ∧ decode 0x6125#16 = .instr (.not 1 2) ∧
  decode 0x9ABC#16 = .instr .ret ∧ decode 0xA123#16 = .instr (.bir 0x123#12) ∧
  decode 0xB420#16 = .instr (.ldm 4 2) ∧ decode 0xC230#16 = .instr (.str 2 3) ∧
  decode 0xD1FF#16 = .instr (.ldi 1 255#8) ∧ decode 0xE523#16 = .instr (.cmpNe 2 3) ∧
  decode 0xE623#16 = .illegalCompareMode 6 ∧ decode 0xF1FF#16 = .instr (.spg 1)

/-! ### Reset and the invariant -/

/-- 10_state.md R34: the reset value of each piece of state, of the interface's reset state and of a core that starts with any
parameters and any program loaded; the program store holds the loaded program. -/
def Obligations.ResetStateIsZero : Prop :=
  (∀ (c : Config) (p : ProgramStore) (s : State), s = State.reset ∨ s = State.resetWith c p →
    (∀ i : Fin 16, s.regs[i] = 0#8) ∧ s.pc = 0 ∧ s.stack = [] ∧ s.flag = false ∧ s.activePage = 0#8 ∧
    (∀ page off : Byte, s.dataByte page off = 0#8) ∧ s.status = .running) ∧
  ∀ (c : Config) (p : ProgramStore), (State.resetWith c p).programStore = p

/-- 70_reset_and_hazards.md R118 (the `reset` input is the spec's own, D21; log entry 22): from any state, a halted one too,
the reset input gives the reset values and keeps the program store and the parameters. -/
def Obligations.ResetInputFromAnyState : Prop :=
  ∀ s : State,
    s.applyReset.status = .running ∧ s.applyReset.pc = 0 ∧ s.applyReset.stack = [] ∧ s.applyReset.flag = false ∧
    s.applyReset.activePage = 0#8 ∧ (∀ r : RegIdx, s.applyReset.readReg r = 0#8) ∧
    (∀ a : DataAddr, s.applyReset.byteAt a = 0#8) ∧
    s.applyReset.programStore = s.programStore ∧ s.applyReset.config = s.config

/-- The machine's invariant (legal parameters, canonical stores, pc in its range and inside the store while Running, the call
stack within its depth, a fault record the state bears out) is kept by every step, from every state that has it. -/
def Obligations.StepKeepsInvariant : Prop :=
  ∀ s t : State, s.Inv → step s = .next t → t.Inv

/-- The reset state has the invariant, whatever legal parameters and program store it has. That the interface's reset state has
the default parameters and nothing loaded is the model's choice (log entries 2, 7). -/
def Obligations.ResetHasInvariant : Prop :=
  State.reset = State.resetWith Config.full [] ∧ State.reset.Inv ∧
  ∀ (c : Config) (p : ProgramStore), c.WellFormed → ProgramStore.wf c.capacity p → (State.resetWith c p).Inv

/-- 70_reset_and_hazards.md R121: whatever file the loader accepts, the core starts at reset with the invariant. -/
def Obligations.BootedCoreHasInvariant : Prop :=
  ∀ (h : HostParams) (c : Config) (file : Option (List Byte)) (s : State),
    c.WellFormed → boot h c file = some s → s.Inv ∧ s = State.resetWith c s.programStore

/-- The model's canonical form (log entry 14): two data memories in canonical form whose bytes all read alike are equal. -/
def Obligations.EqualReadsMeanEqualMemory : Prop :=
  ∀ s t : State, Memory.wf s.dataMemory → Memory.wf t.dataMemory → SameMemory s t → t.dataMemory = s.dataMemory

/-! ### The tick -/

/-- 40_tick.md R74, R71: every state has a next state under `step`, no fault or refusal of the interface is ever answered, and
`k` steps of the core lead to `ticks k s`. -/
def Obligations.StepAlwaysAnswersNext : Prop :=
  ∀ s : State, step s = .next (tick s) ∧ ∀ k : Nat, Sys2Proof.core.run k s = .next (ticks k s)

/-- 40_tick.md R71: a Terminated or Faulted state does not change, in any number of ticks. -/
def Obligations.HaltedStateIsFinal : Prop :=
  ∀ s : State, s.status ≠ .running → ∀ k : Nat, step s = .next s ∧ Sys2Proof.core.run k s = .next s

/-- A step runs the decoded instruction (40_tick.md R68): where the word at pc decodes to `i` and `exec i` answers `t`, step
answers `t`, or `t` with status Terminated where `t` still runs and its pc is past the store (R73). Every instruction is
well-formed by its type. -/
def Obligations.StepRunsDecodedInstruction : Prop :=
  ∀ (s t : State) (i : Instr), s.status = .running → s.pc < s.config.capacity →
    decode (s.programWord s.pc) = .instr i → exec i s = .next t →
    step s = .next (if t.status = .running ∧ t.config.capacity ≤ t.pc then t.setStatus .terminated else t)

/-- The word `withFetchWord` places is the one the next step runs (log entry 7); no other word of the store changes. -/
def Obligations.PlacedWordIsRunNext : Prop :=
  ∀ (s t : State) (i : Instr) (nbits w : Nat), s.status = .running → s.pc < s.config.capacity →
    decodeTableWord nbits w = some i → exec i (s.withFetchWord nbits w) = .next t →
    step (s.withFetchWord nbits w) = .next t.finishTick ∧
    ∀ a : Nat, a ≠ s.pc → (s.withFetchWord nbits w).programWord a = s.programWord a

/-- 40_tick.md R72 (decision D3 for the two settings of a taken BIR): the next pc and the change of the call stack of every
instruction, after a tick that does not fault. -/
def Obligations.NextPcTable : Prop :=
  ∀ (s : State) (i : Instr), s.fetches = true → decode s.fetchWord = .instr i → (tick s).Safe →
    match i with
    | .ret =>
        (s.stack = [] → (tick s).pc = s.pc + 1 ∧ (tick s).stack = []) ∧
        (∀ (rest : List Addr12) (a : Addr12), s.stack = rest ++ [a] → (tick s).pc = a.toNat ∧ (tick s).stack = rest)
    | .bir a =>
        (s.flag = false → (tick s).pc = s.pc ∧ (tick s).stack = s.stack) ∧
        (s.flag = true → (tick s).stack = s.stack ++ [a] ∧
          (s.config.birTakenNext = .target → (tick s).pc = a.toNat) ∧
          (s.config.birTakenNext = .targetMinus1 → (tick s).pc + 1 = a.toNat))
    | _ => (tick s).pc = s.pc + 1 ∧ (tick s).stack = s.stack

/-- 40_tick.md R73 (decision D17): at the end of a tick that does not fault, the status is Terminated exactly when pc is at or
past `CAPACITY`, and Running otherwise. -/
def Obligations.TerminationExactlyPastStore : Prop :=
  ∀ s : State, s.fetches = true → (tick s).Safe →
    ((tick s).status = .terminated ↔ s.config.capacity ≤ (tick s).pc) ∧
    ((tick s).status = .running ↔ (tick s).pc < s.config.capacity)

/-- 40_tick.md R73 (decision D17): "when `CAPACITY` = 4096, only the sequential pc can reach `CAPACITY`, after the instruction
at address 4095". -/
def Obligations.FullStoreEndsAfterLastWord : Prop :=
  ∀ s : State, s.Inv → s.config.capacity = 4096 → s.status = .running → (tick s).status = .terminated →
    s.pc = 4095 ∧ (tick s).pc = 4096

/-- 40_tick.md R75 (the spec's derivation): a BIR with the flag clear spins for ever; no number of ticks changes anything. -/
def Obligations.NotTakenBirSpinsForever : Prop :=
  ∀ (s : State) (a : Addr12), s.fetches = true → decode s.fetchWord = .instr (.bir a) → s.flag = false →
    ∀ k : Nat, Sys2Proof.core.run k s = .next s

/-- 20_memory.md R36 (zero padding is decision D6; log entry 14): a core whose remaining words are all 0x0000 passes through
them, stays Running until the last, and ends Terminated with pc = `CAPACITY` and the registers, flag, call stack, ActivePage
and memory unchanged (the program store is `ProgramStoreNeverChanges`'s). -/
def Obligations.PaddingRunsToTheEnd : Prop :=
  ∀ (s : State) (n : Nat), s.status = .running → 0 < n → s.pc + n = s.config.capacity →
    (∀ a : Nat, s.pc ≤ a → a < s.config.capacity → s.programWord a = 0#16) →
    (∀ k : Nat, k < n → (ticks k s).status = .running ∧ (ticks k s).pc = s.pc + k) ∧
    (ticks n s).status = .terminated ∧ (ticks n s).pc = s.config.capacity ∧
    SameRegisters s (ticks n s) ∧ (ticks n s).flag = s.flag ∧ (ticks n s).stack = s.stack ∧
    (ticks n s).activePage = s.activePage ∧ SameMemory s (ticks n s)

/-! ### Faults -/

/-- 40_tick.md R70, 60_exceptions.md R103 (decision D8): a tick that faults writes no register, flag, stack entry, ActivePage
or memory byte; the record carries the address and word of the faulting instruction. The last clause, on the pc register, is
the spec's own decision D8 (log entry 4); no other statement reads it. -/
def Obligations.FaultingTickWritesNothing : Prop :=
  ∀ (s : State) (rec : FaultRecord), s.status = .running → (tick s).status = .faulted rec →
    FaultsWith rec s (tick s) ∧ rec.pc = s.pc ∧ rec.word = s.fetchWord ∧ (tick s).pc = s.pc + 1

/-- 60_exceptions.md R101, R102, R104 (decisions D4, D7, D18, D19; log entries 11, 12): the conditions that fault, each with
its record, and no others. A full stack is reported before an underflow. -/
def Obligations.FaultsAreExactlyTheListed : Prop :=
  ∀ (s : State) (rec : FaultRecord), s.fetches = true →
    ((tick s).status = .faulted rec ↔
      (∃ m : Fin 16, decode s.fetchWord = .illegalCompareMode m ∧
        rec = { kind := .illegalCompareMode, pc := s.pc, word := s.fetchWord, value := m.val }) ∨
      (∃ r1 r2 r3 : RegIdx, decode s.fetchWord = .instr (.div r1 r2 r3) ∧ s.readReg r3 = 0#8 ∧
        rec = { kind := .divideByZero, pc := s.pc, word := s.fetchWord, value := r3.val }) ∨
      (∃ a : Addr12, decode s.fetchWord = .instr (.bir a) ∧ s.flag = true ∧
        s.config.callStackDepth = some s.stack.length ∧
        rec = { kind := .callStackOverflow, pc := s.pc, word := s.fetchWord, value := a.toNat }) ∨
      (decode s.fetchWord = .instr (.bir 0#12) ∧ s.flag = true ∧
        s.config.callStackDepth ≠ some s.stack.length ∧ s.config.birTakenNext = .targetMinus1 ∧
        rec = { kind := .pcUnderflow, pc := s.pc, word := s.fetchWord, value := 0 }))

/-- 60_exceptions.md R101 (decisions D4, D7, D19): with an unbounded call stack and `BIR_TAKEN_NEXT = Target` a tick raises only
the kinds of codes 2 and 3. -/
def Obligations.DefaultFaultsHaveCodesTwoAndThree : Prop :=
  ∀ (s : State) (rec : FaultRecord), s.config.callStackDepth = none → s.config.birTakenNext = .target →
    s.status = .running → (tick s).status = .faulted rec → rec.kind.code = 2 ∨ rec.kind.code = 3

/-! ### Who writes what -/

/-- 10_state.md R20: `read(0)` is 0 whatever was written to slot 0, and no instruction can see the stored byte: two states that
differ at most in it stay so for ever, and end, if they end, with the same observation. -/
def Obligations.HiddenSlotIsNeverObserved : Prop :=
  (∀ (s : State) (v : Byte), (s.writeReg 0 v).readReg 0 = 0#8 ∧ s.SameButSlot0 (s.writeReg 0 v)) ∧
  (∀ (s t : State) (k : Nat), s.SameButSlot0 t →
    (ticks k s).SameButSlot0 (ticks k t) ∧ (ticks k t).observe = (ticks k s).observe)

/-- 10_state.md R21, 40_tick.md R69: a tick changes a register only if its instruction names it as destination. -/
def Obligations.RegistersChangeOnlyAsDestination : Prop :=
  ∀ (s : State) (q : RegIdx), (tick s).readReg q ≠ s.readReg q →
    q ≠ 0 ∧ s.fetches = true ∧ ∃ i : Instr, decode s.fetchWord = .instr i ∧ destination i = some q

/-- 10_state.md R25: only a legal CMP changes the flag; R26: an illegal one does not. -/
def Obligations.FlagChangesOnlyByCompare : Prop :=
  ∀ s : State, (tick s).flag ≠ s.flag →
    s.fetches = true ∧ ∃ (m : CompareMode) (r2 r3 : RegIdx), decode s.fetchWord = .instr (cmpInstr m r2 r3)

/-- 10_state.md R27: only SPG changes ActivePage. -/
def Obligations.ActivePageChangesOnlyBySpg : Prop :=
  ∀ s : State, (tick s).activePage ≠ s.activePage →
    s.fetches = true ∧ ∃ r1 : RegIdx, decode s.fetchWord = .instr (.spg r1) ∧ (tick s).activePage = s.readReg r1

/-- 10_state.md R29: only a BIR with the flag set pushes, only RET pops, and nothing else changes the stack. -/
def Obligations.StackChangesOnlyByBirAndRet : Prop :=
  ∀ s : State, (tick s).stack ≠ s.stack →
    s.fetches = true ∧
    ((decode s.fetchWord = .instr .ret ∧ ∃ a : Addr12, s.stack = (tick s).stack ++ [a]) ∨
     (∃ a : Addr12, decode s.fetchWord = .instr (.bir a) ∧ s.flag = true ∧ (tick s).stack = s.stack ++ [a]))

/-- 20_memory.md R39, R41: only STR changes data memory, only the byte it addresses, and never a byte of another page. -/
def Obligations.MemoryChangesOnlyByStr : Prop :=
  ∀ (s : State) (page off : Byte), (tick s).dataByte page off ≠ s.dataByte page off →
    page = s.activePage ∧ s.fetches = true ∧
    ∃ r1 r2 : RegIdx, decode s.fetchWord = .instr (.str r1 r2) ∧ off = s.readReg r1 ∧
      (tick s).dataByte page off = s.readReg r2

/-- 20_memory.md R52: stores never reach instruction fetch; no number of ticks changes the program store. -/
def Obligations.ProgramStoreNeverChanges : Prop :=
  ∀ (s : State) (k : Nat), (ticks k s).programStore = s.programStore

/-! ### Runs -/

/-- 40_tick.md R74 (decision D17): a run ends Terminated, or ends Faulted, or never ends; it never does two of these, and a run
that ends Faulted has one record. -/
def Obligations.RunHasExactlyOneOutcome : Prop :=
  ∀ s : State,
    ((∃ k : Nat, (ticks k s).status = .terminated) ∨
     (∃ (k : Nat) (rec : FaultRecord), (ticks k s).status = .faulted rec) ∨
     (∀ k : Nat, (ticks k s).status = .running)) ∧
    (∀ (j k : Nat) (rec : FaultRecord), (ticks j s).status = .terminated → (ticks k s).status ≠ .faulted rec) ∧
    (∀ (j k : Nat) (rec rec' : FaultRecord),
      (ticks j s).status = .faulted rec → (ticks k s).status = .faulted rec' → rec = rec')

/-- 42_control.md R93 (the spec's derivation): the depth of the call stack is the taken BIRs minus the RETs that found it
non-empty, counted over any number of ticks from any state. -/
def Obligations.StackDepthCountsBirsAndRets : Prop :=
  ∀ (s : State) (k : Nat),
    (ticks k s).stack.length + poppingRets k s = s.stack.length + takenBirs k s

/-- 20_memory.md R46, R50: after any number of ticks every byte holds what the most recent store to it stored, or what it held
at the start; and a LDM that runs then reads exactly that. -/
def Obligations.LoadReturnsMostRecentStore : Prop :=
  ∀ (s : State) (k : Nat),
    (∀ a : DataAddr, (ticks k s).byteAt a = lastStored a (s.byteAt a) (storesOf k s)) ∧
    (∀ r1 r2 : RegIdx, (ticks k s).fetches = true → decode (ticks k s).fetchWord = .instr (.ldm r1 r2) → r1 ≠ 0 →
      (ticks (k + 1) s).readReg r1 =
        lastStored (dataAddr (ticks k s).activePage ((ticks k s).readReg r2))
          (s.byteAt (dataAddr (ticks k s).activePage ((ticks k s).readReg r2))) (storesOf k s))

/-! ### ALU instructions -/

/-- 41_alu.md R80: the words of ADD, and its result and frame. -/
def Obligations.AddWrapsModulo256 : Prop :=
  (∀ w : Word, w &&& 0xF000#16 = 0x0000#16 →
    decode w = .instr (.add (w.extractLsb 11 8).toFin (w.extractLsb 7 4).toFin (w.extractLsb 3 0).toFin)) ∧
  (∀ (r1 r2 r3 : RegIdx) (s : State), ∃ (t : State) (v : Byte), exec (.add r1 r2 r3) s = .next t ∧
    v.toNat = ((s.readReg r2).toNat + (s.readReg r3).toNat) % 256 ∧ WritesRegisterOnly r1 v s t)

/-- 41_alu.md R81: the words of SUB, and its result and frame. -/
def Obligations.SubWrapsModulo256 : Prop :=
  (∀ w : Word, w &&& 0xF000#16 = 0x1000#16 →
    decode w = .instr (.sub (w.extractLsb 11 8).toFin (w.extractLsb 7 4).toFin (w.extractLsb 3 0).toFin)) ∧
  (∀ (r1 r2 r3 : RegIdx) (s : State), ∃ (t : State) (v : Byte), exec (.sub r1 r2 r3) s = .next t ∧
    (v.toNat : Int) = ((s.readReg r2).toNat - (s.readReg r3).toNat : Int) % 256 ∧ WritesRegisterOnly r1 v s t)

/-- 41_alu.md R82 (unsigned by decision D1, log entry 10; the record by D7): the words of DIV; its quotient and frame for a
divisor that is not 0; the fault, with nothing written, for a divisor that is 0. -/
def Obligations.DivTruncatesOrFaults : Prop :=
  (∀ w : Word, w &&& 0xF000#16 = 0x2000#16 →
    decode w = .instr (.div (w.extractLsb 11 8).toFin (w.extractLsb 7 4).toFin (w.extractLsb 3 0).toFin)) ∧
  (∀ (r1 r2 r3 : RegIdx) (s : State), s.readReg r3 ≠ 0#8 →
    ∃ (t : State) (v : Byte), exec (.div r1 r2 r3) s = .next t ∧
      v.toNat = (s.readReg r2).toNat / (s.readReg r3).toNat ∧ WritesRegisterOnly r1 v s t) ∧
  (∀ (r1 r2 r3 : RegIdx) (s : State), s.readReg r3 = 0#8 →
    ∃ t : State, exec (.div r1 r2 r3) s = .next t ∧
      FaultsWith { kind := .divideByZero, pc := s.pc, word := encode (.div r1 r2 r3), value := r3.val } s t)

/-- 41_alu.md R83: the words of AND, and its result, bit by bit, and frame. -/
def Obligations.AndIsBitwise : Prop :=
  (∀ w : Word, w &&& 0xF000#16 = 0x3000#16 →
    decode w = .instr (.and (w.extractLsb 11 8).toFin (w.extractLsb 7 4).toFin (w.extractLsb 3 0).toFin)) ∧
  (∀ (r1 r2 r3 : RegIdx) (s : State), ∃ (t : State) (v : Byte), exec (.and r1 r2 r3) s = .next t ∧
    (∀ k : Nat, v.getLsbD k = ((s.readReg r2).getLsbD k && (s.readReg r3).getLsbD k)) ∧ WritesRegisterOnly r1 v s t)

/-- 41_alu.md R84: the words of ORR, and its result, bit by bit, and frame. -/
def Obligations.OrrIsBitwise : Prop :=
  (∀ w : Word, w &&& 0xF000#16 = 0x4000#16 →
    decode w = .instr (.orr (w.extractLsb 11 8).toFin (w.extractLsb 7 4).toFin (w.extractLsb 3 0).toFin)) ∧
  (∀ (r1 r2 r3 : RegIdx) (s : State), ∃ (t : State) (v : Byte), exec (.orr r1 r2 r3) s = .next t ∧
    (∀ k : Nat, v.getLsbD k = ((s.readReg r2).getLsbD k || (s.readReg r3).getLsbD k)) ∧ WritesRegisterOnly r1 v s t)

/-- 41_alu.md R85: the words of XOR, and its result, bit by bit, and frame. -/
def Obligations.XorIsBitwise : Prop :=
  (∀ w : Word, w &&& 0xF000#16 = 0x5000#16 →
    decode w = .instr (.xor (w.extractLsb 11 8).toFin (w.extractLsb 7 4).toFin (w.extractLsb 3 0).toFin)) ∧
  (∀ (r1 r2 r3 : RegIdx) (s : State), ∃ (t : State) (v : Byte), exec (.xor r1 r2 r3) s = .next t ∧
    (∀ k : Nat, v.getLsbD k = ((s.readReg r2).getLsbD k != (s.readReg r3).getLsbD k)) ∧ WritesRegisterOnly r1 v s t)

/-- 41_alu.md R86: the words of NOT, whatever their `r3`, and its result, "equals `255 − x[r2]`", and frame. -/
def Obligations.NotIsComplement : Prop :=
  (∀ w : Word, w &&& 0xF000#16 = 0x6000#16 →
    decode w = .instr (.not (w.extractLsb 11 8).toFin (w.extractLsb 7 4).toFin)) ∧
  (∀ (r1 r2 : RegIdx) (s : State), ∃ (t : State) (v : Byte), exec (.not r1 r2) s = .next t ∧
    v.toNat = 255 - (s.readReg r2).toNat ∧ WritesRegisterOnly r1 v s t)

/-- 41_alu.md R87 (amounts 8..255 by decision D2, log entry 13): the words of LSH, and its result at both settings of
`SHIFT_GE8`, and frame. -/
def Obligations.LshShiftsLeft : Prop :=
  (∀ w : Word, w &&& 0xF000#16 = 0x7000#16 →
    decode w = .instr (.lsh (w.extractLsb 11 8).toFin (w.extractLsb 7 4).toFin (w.extractLsb 3 0).toFin)) ∧
  (∀ (r1 r2 r3 : RegIdx) (s : State), ∃ (t : State) (v : Byte), exec (.lsh r1 r2 r3) s = .next t ∧
    v.toNat = (if (s.readReg r3).toNat < 8 then (s.readReg r2).toNat * 2 ^ (s.readReg r3).toNat % 256
      else if s.config.shiftGe8 = .zero then 0
      else (s.readReg r2).toNat * 2 ^ ((s.readReg r3).toNat % 8) % 256) ∧
    WritesRegisterOnly r1 v s t)

/-- 41_alu.md R88 (logical by decision D1, amounts 8..255 by D2; log entries 10, 13): the words of RSH, and its result at both
settings of `SHIFT_GE8`, and frame. -/
def Obligations.RshShiftsRight : Prop :=
  (∀ w : Word, w &&& 0xF000#16 = 0x8000#16 →
    decode w = .instr (.rsh (w.extractLsb 11 8).toFin (w.extractLsb 7 4).toFin (w.extractLsb 3 0).toFin)) ∧
  (∀ (r1 r2 r3 : RegIdx) (s : State), ∃ (t : State) (v : Byte), exec (.rsh r1 r2 r3) s = .next t ∧
    v.toNat = (if (s.readReg r3).toNat < 8 then (s.readReg r2).toNat / 2 ^ (s.readReg r3).toNat
      else if s.config.shiftGe8 = .zero then 0
      else (s.readReg r2).toNat / 2 ^ ((s.readReg r3).toNat % 8)) ∧
    WritesRegisterOnly r1 v s t)

/-! ### Control instructions -/

/-- 42_control.md R89, 60_exceptions.md R106 (that the low 12 bits are don't-care is decision D9, log entry 9; the end of the
run is 40_tick.md R73, decision D17): the words of RET, whatever their low 12 bits; it pops the top into pc, and on an empty
stack only moves pc on; a popped address past the store ends the run at the end of the tick. -/
def Obligations.RetPopsIntoPc : Prop :=
  (∀ w : Word, w &&& 0xF000#16 = 0x9000#16 → decode w = .instr .ret) ∧
  (∀ (s : State) (rest : List Addr12) (a : Addr12), s.stack = rest ++ [a] →
    ∃ t : State, exec .ret s = .next t ∧ t.pc = a.toNat ∧ t.stack = rest ∧
      SameRegisters s t ∧ SameMemory s t ∧ SameControl s t) ∧
  (∀ s : State, s.stack = [] →
    ∃ t : State, exec .ret s = .next t ∧ t.pc = s.pc + 1 ∧ t.stack = [] ∧
      SameRegisters s t ∧ SameMemory s t ∧ SameControl s t) ∧
  (∀ (s : State) (rest : List Addr12) (a : Addr12), s.fetches = true → decode s.fetchWord = .instr .ret →
    s.stack = rest ++ [a] → s.config.capacity ≤ a.toNat →
    ∃ t : State, step s = .next t ∧ t.pc = a.toNat ∧ t.status = .terminated)

/-- 42_control.md R90 (decisions D3, D4): the words of BIR; with the flag set and room on the stack it pushes its target and
goes there, or one word before it at the setting `TargetMinus1`; with the flag clear it leaves everything as it is. -/
def Obligations.BirBranchesAndPushes : Prop :=
  (∀ w : Word, w &&& 0xF000#16 = 0xA000#16 → decode w = .instr (.bir (w.extractLsb 11 0))) ∧
  (∀ (a : Addr12) (s : State), s.flag = true → s.config.callStackDepth ≠ some s.stack.length →
    (s.config.birTakenNext = .target ∨ a ≠ 0#12) →
    ∃ t : State, exec (.bir a) s = .next t ∧ t.stack = s.stack ++ [a] ∧
      t.pc = (if s.config.birTakenNext = .target then a.toNat else a.toNat - 1) ∧
      SameRegisters s t ∧ SameMemory s t ∧ SameControl s t) ∧
  (∀ (a : Addr12) (s : State), s.flag = false → exec (.bir a) s = .next s)

/-- 42_control.md R90, R91, 60_exceptions.md R104 (decisions D4, D7, D19): a taken BIR on a full stack faults with
`CallStackOverflow`, checked first; a taken `BIR 0` with room, at `TargetMinus1`, faults with `PcUnderflow`; nothing is
pushed. -/
def Obligations.BirOverflowThenUnderflow : Prop :=
  (∀ (a : Addr12) (s : State), s.flag = true → s.config.callStackDepth = some s.stack.length →
    ∃ t : State, exec (.bir a) s = .next t ∧
      FaultsWith { kind := .callStackOverflow, pc := s.pc, word := encode (.bir a), value := a.toNat } s t) ∧
  (∀ s : State, s.flag = true → s.config.callStackDepth ≠ some s.stack.length →
    s.config.birTakenNext = .targetMinus1 →
    ∃ t : State, exec (.bir 0#12) s = .next t ∧
      FaultsWith { kind := .pcUnderflow, pc := s.pc, word := 0xA000#16, value := 0 } s t)

/-- 42_control.md R92: a RET after a taken BIR, whatever pc does in between, "re-enters the exact address the corresponding BIR
branched to", and the stack is as before the BIR. `u` is any state whose call stack is as the BIR left it. -/
def Obligations.RetReentersBranchTarget : Prop :=
  ∀ (a : Addr12) (s t u : State), s.flag = true → s.config.callStackDepth ≠ some s.stack.length →
    (s.config.birTakenNext = .target ∨ a ≠ 0#12) → exec (.bir a) s = .next t → u.stack = t.stack →
    ∃ v : State, exec .ret u = .next v ∧ v.pc = a.toNat ∧ v.stack = s.stack

/-! ### Memory, immediate, compare, page -/

/-- 20_memory.md R40 (the flat form is decision D12): `{page, off}` is `page * 256 + off`, distinct pairs name distinct bytes,
and every one of the 65,536 values names one. -/
def Obligations.DataAddressIsOneToOne : Prop :=
  (∀ page off : Byte, (dataAddr page off).toNat = page.toNat * 256 + off.toNat) ∧
  (∀ p o p' o' : Byte, dataAddr p o = dataAddr p' o' → p = p' ∧ o = o') ∧
  (∀ a : DataAddr, ∃ page off : Byte, dataAddr page off = a)

/-- 43_memory_ops.md R95 (that `r3` is don't-care is decision D9, log entry 9): the words of LDM, whatever their `r3`; the
destination reads the byte of the active page at the offset the old `x[r2]` names. -/
def Obligations.LdmLoadsFromActivePage : Prop :=
  (∀ w : Word, w &&& 0xF000#16 = 0xB000#16 →
    decode w = .instr (.ldm (w.extractLsb 11 8).toFin (w.extractLsb 7 4).toFin)) ∧
  (∀ (r1 r2 : RegIdx) (s : State), ∃ t : State, exec (.ldm r1 r2) s = .next t ∧
    WritesRegisterOnly r1 (s.dataByte s.activePage (s.readReg r2)) s t)

/-- 43_memory_ops.md R96 (that `r3` is don't-care is decision D9, log entry 9): the words of STR, whatever their `r3`; the
byte of the active page at offset `x[r1]` becomes `x[r2]`, every other byte and every register is as before. -/
def Obligations.StrStoresOneByte : Prop :=
  (∀ w : Word, w &&& 0xF000#16 = 0xC000#16 →
    decode w = .instr (.str (w.extractLsb 11 8).toFin (w.extractLsb 7 4).toFin)) ∧
  (∀ (r1 r2 : RegIdx) (s : State), ∃ t : State, exec (.str r1 r2) s = .next t ∧
    MemoryExcept (s.activeAddr (s.readReg r1)) (s.readReg r2) s t ∧
    t.pc = s.pc + 1 ∧ t.stack = s.stack ∧ SameRegisters s t ∧ SameControl s t)

/-- 43_memory_ops.md R97: STR then LDM at the same offset on the same active page returns the stored value; with another page
selected in between, the load reads that page's own byte, which the STR did not change (0 where nothing has stored to it). -/
def Obligations.StoreThenLoad : Prop :=
  ∀ (ro rv rd rp : RegIdx) (s t : State), exec (.str ro rv) s = .next t → rd ≠ 0 →
    (∃ u : State, exec (.ldm rd ro) t = .next u ∧ u.readReg rd = s.readReg rv) ∧
    (s.readReg rp ≠ s.activePage → ∃ u v : State, exec (.spg rp) t = .next u ∧ exec (.ldm rd ro) u = .next v ∧
      v.readReg rd = s.dataByte (s.readReg rp) (s.readReg ro))

/-- 44_immediate.md R98: the words of LDI, and its result and frame. -/
def Obligations.LdiWritesLiteral : Prop :=
  (∀ w : Word, w &&& 0xF000#16 = 0xD000#16 →
    decode w = .instr (.ldi (w.extractLsb 11 8).toFin (w.extractLsb 7 0))) ∧
  (∀ (r1 : RegIdx) (imm8 : Byte) (s : State), ∃ t : State, exec (.ldi r1 imm8) s = .next t ∧
    WritesRegisterOnly r1 imm8 s t)

/-- 45_compare.md R99 (unsigned by decision D1, the raw mode field by D18; log entries 10, 11), for `cmpEq`, `cmpGt`, `cmpLt`,
`cmpGe`, `cmpLe` and `cmpNe`, which `cmpInstr` gives for the modes in that order: the words of each mode; each mode
writes its condition to the flag and nothing else; modes 6..15 fault and write nothing. -/
def Obligations.CompareSetsFlagByMode : Prop :=
  (∀ (w : Word) (m : CompareMode) (n : Nat),
    (m, n) ∈ [(CompareMode.eq, 0), (.gt, 1), (.lt, 2), (.ge, 3), (.le, 4), (.ne, 5)] →
    w.toNat / 256 = 0xE0 + n →
    decode w = .instr (cmpInstr m (w.extractLsb 7 4).toFin (w.extractLsb 3 0).toFin)) ∧
  (∀ (m : CompareMode) (r2 r3 : RegIdx) (s : State), ∃ t : State, exec (cmpInstr m r2 r3) s = .next t ∧
    (t.flag = true ↔ match m with
      | .eq => (s.readReg r2).toNat = (s.readReg r3).toNat
      | .gt => (s.readReg r2).toNat > (s.readReg r3).toNat
      | .lt => (s.readReg r2).toNat < (s.readReg r3).toNat
      | .ge => (s.readReg r2).toNat ≥ (s.readReg r3).toNat
      | .le => (s.readReg r2).toNat ≤ (s.readReg r3).toNat
      | .ne => (s.readReg r2).toNat ≠ (s.readReg r3).toNat) ∧
    t.pc = s.pc + 1 ∧ t.stack = s.stack ∧ t.activePage = s.activePage ∧ t.status = s.status ∧
    t.programStore = s.programStore ∧ t.config = s.config ∧ SameRegisters s t ∧ SameMemory s t) ∧
  (∀ (s : State) (n : Nat), s.fetches = true → 6 ≤ n → n ≤ 15 → s.fetchWord.toNat / 256 = 0xE0 + n →
    ∃ t : State, step s = .next t ∧
      FaultsWith { kind := .illegalCompareMode, pc := s.pc, word := s.fetchWord, value := n } s t)

/-- 46_page.md R100 (that the low byte is don't-care is decision D9, log entry 9): the words of SPG, whatever their low byte;
ActivePage becomes `x[r1]` (0 for register 0), and nothing else but pc changes. -/
def Obligations.SpgSelectsPage : Prop :=
  (∀ w : Word, w &&& 0xF000#16 = 0xF000#16 → decode w = .instr (.spg (w.extractLsb 11 8).toFin)) ∧
  (∀ (r1 : RegIdx) (s : State), ∃ t : State, exec (.spg r1) s = .next t ∧ t.activePage = s.readReg r1 ∧
    (r1 = 0 → t.activePage = 0#8) ∧ t.pc = s.pc + 1 ∧ t.stack = s.stack ∧ t.flag = s.flag ∧ t.status = s.status ∧
    t.programStore = s.programStore ∧ t.config = s.config ∧ SameRegisters s t ∧ SameMemory s t)

/-! ### The block interface, idioms, the loader and the renderer -/

/-- 00_scope.md R10 (decision D12; log entry 18), 20_memory.md R45: `dmem_we` is 1 exactly on the tick of a STR; then the tick
stores `dmem_wdata` at `dmem_addr` and nothing else, and otherwise it stores nothing. -/
def Obligations.WriteEnableMeansStr : Prop :=
  ∀ s : State,
    ((ports s).dmemWe = true ↔ s.fetches = true ∧ ∃ r1 r2 : RegIdx, decode s.fetchWord = .instr (.str r1 r2)) ∧
    ((ports s).dmemWe = true → ∃ (a : DataAddr) (v : Byte),
      (ports s).dmemAddr = some a ∧ (ports s).dmemWdata = some v ∧ MemoryExcept a v s (tick s)) ∧
    ((ports s).dmemWe = false → SameMemory s (tick s))

/-- 30_encoding.md R66 (the idioms are the spec's own, D16): NOP only advances pc, MOV copies a register, and JMP sets the flag,
goes to its target and pushes it (with room on the stack and `BIR_TAKEN_NEXT = Target`). -/
def Obligations.IdiomsDoAsListed : Prop :=
  (∀ s : State, ∃ t : State, execAll idiomNop s = .next t ∧ s.advance.SameButSlot0 t) ∧
  (∀ (rD rA : RegIdx) (s : State), ∃ t : State, execAll (idiomMov rD rA) s = .next t ∧
    WritesRegisterOnly rD (s.readReg rA) s t) ∧
  (∀ (a : Addr12) (s : State), s.config.callStackDepth ≠ some s.stack.length → s.config.birTakenNext = .target →
    ∃ t : State, execAll (idiomJmp a) s = .next t ∧ t.flag = true ∧ t.pc = a.toNat ∧ t.stack = s.stack ++ [a] ∧
      SameRegisters s t ∧ SameMemory s t ∧ t.activePage = s.activePage ∧ t.status = s.status ∧
      t.programStore = s.programStore ∧ t.config = s.config)

/-- 20_memory.md R37; R36 (zero beyond the loaded words is decision D6): the loaded store holds the big-endian pairs of the
file in order, and 0x0000 beyond them. -/
def Obligations.LoaderPairsBytesBigEndian : Prop :=
  ∀ (h : HostParams) (c : Config) (bytes : List Byte) (s : State), boot h c (some bytes) = some s →
    ∀ k : Nat,
      (∀ hi lo : Byte, k < c.capacity → bytes[2 * k]? = some hi → bytes[2 * k + 1]? = some lo →
        (s.programWord k).toNat = hi.toNat * 256 + lo.toNat) ∧
      (c.capacity ≤ k ∨ bytes.length ≤ 2 * k + 1 → s.programWord k = 0#16)

/-- 20_memory.md R38 (the options are open, D14; that both checks look at the file as given is the model's choice, log entry
15), 60_exceptions.md R105: when no tick runs. -/
def Obligations.LoaderFailsExactlyWhenToldTo : Prop :=
  ∀ (h : HostParams) (c : Config) (file : Option (List Byte)),
    boot h c file = none ↔
      match file with
      | none => True
      | some bytes =>
        (h.loaderOdd = .fail ∧ bytes.length % 2 = 1) ∨
        (h.loaderOverlong = .reject ∧ 2 * c.capacity < bytes.length)

/-- 60_exceptions.md R112 (linear scale by decision D20; log entry 16): the cell of every offset of page 255. -/
def Obligations.FrameShowsPage255 : Prop :=
  ∀ (s : State) (o : Byte), ∃ p : Pixel, (frame s)[o.toNat]? = some p ∧ (frame s).length = 256 ∧
    p.row.val = o.toNat / 16 ∧ p.col.val = o.toNat % 16 ∧
    p.redLevel = (((s.dataByte 255#8 o).toNat / 32 : Nat) : ℚ) / 7 ∧
    p.greenLevel = (((s.dataByte 255#8 o).toNat / 4 % 8 : Nat) : ℚ) / 7 ∧
    p.blueLevel = (((s.dataByte 255#8 o).toNat % 4 : Nat) : ℚ) / 3
end

