-- ==== Sys2Proof/Laws/Decode.lean ====
section
/-! SUPPORT. The fields of a word, an encoding and a mask as numbers, so that facts about decoding reduce to arithmetic. -/

namespace Sys2Proof

@[simp] theorem decodeFields_opcode_val (w : Word) : (decodeFields w).opcode.val = w.toNat / 4096 := by
  have := w.isLt
  simp [decodeFields, BitVec.extractLsb, Nat.shiftRight_eq_div_pow]
  omega

@[simp] theorem decodeFields_r1_val (w : Word) : (decodeFields w).r1.val = w.toNat / 256 % 16 := by
  simp [decodeFields, BitVec.extractLsb, Nat.shiftRight_eq_div_pow]

@[simp] theorem decodeFields_r2_val (w : Word) : (decodeFields w).r2.val = w.toNat / 16 % 16 := by
  simp [decodeFields, BitVec.extractLsb, Nat.shiftRight_eq_div_pow]

@[simp] theorem decodeFields_r3_val (w : Word) : (decodeFields w).r3.val = w.toNat % 16 := by
  simp [decodeFields, BitVec.extractLsb]

@[simp] theorem decodeFields_addr12_toNat (w : Word) : (decodeFields w).addr12.toNat = w.toNat % 4096 := by
  simp [decodeFields, BitVec.extractLsb]

@[simp] theorem decodeFields_imm8_toNat (w : Word) : (decodeFields w).imm8.toNat = w.toNat % 256 := by
  simp [decodeFields, BitVec.extractLsb]

/-- The register form as a number (R61). -/
theorem registerForm_toNat {opcode r1 r2 r3 : Nat} (ho : opcode < 16) (h1 : r1 < 16) (h2 : r2 < 16) (h3 : r3 < 16) :
    (registerForm opcode r1 r2 r3).toNat = opcode * 4096 + r1 * 256 + r2 * 16 + r3 := by
  unfold registerForm
  rw [BitVec.toNat_ofNat]
  omega

/-- Clearing the low bits of a word, as a number. -/
theorem shiftOut_toNat (w : Word) (k : Nat) : ((w >>> k) <<< k).toNat = w.toNat / 2 ^ k * 2 ^ k := by
  have h : w.toNat / 2 ^ k * 2 ^ k ≤ w.toNat := Nat.div_mul_le_self _ _
  have := w.isLt
  simp only [BitVec.toNat_shiftLeft, BitVec.toNat_ushiftRight, Nat.shiftRight_eq_div_pow, Nat.shiftLeft_eq]
  exact Nat.mod_eq_of_lt (by omega)

/-- The opcode mask of the table's rows, as a number. -/
theorem and_opcodeMask_toNat (w : Word) : (w &&& 0xF000#16).toNat = w.toNat / 4096 * 4096 := by
  rw [show w &&& 0xF000#16 = (w >>> 12) <<< 12 by ext i hi; interval_cases i <;> simp, shiftOut_toNat]
  norm_num

/-- The mask of the CMP rows and of SPG's used bits, as a number. -/
theorem and_modeMask_toNat (w : Word) : (w &&& 0xFF00#16).toNat = w.toNat / 256 * 256 := by
  rw [show w &&& 0xFF00#16 = (w >>> 8) <<< 8 by ext i hi; interval_cases i <;> simp, shiftOut_toNat]
  norm_num

/-- The mask of the used bits of NOT, LDM and STR, as a number. -/
theorem and_lowFieldMask_toNat (w : Word) : (w &&& 0xFFF0#16).toNat = w.toNat / 16 * 16 := by
  rw [show w &&& 0xFFF0#16 = (w >>> 4) <<< 4 by ext i hi; interval_cases i <;> simp, shiftOut_toNat]
  norm_num

/-- The mask that keeps every bit. -/
theorem and_fullMask (w : Word) : w &&& 0xFFFF#16 = w :=
  BitVec.and_allOnes

/-- A register-form word belongs to its opcode's row. -/
theorem registerForm_and_opcodeMask {opcode r1 r2 r3 : Nat} (ho : opcode < 16) (h1 : r1 < 16) (h2 : r2 < 16)
    (h3 : r3 < 16) : registerForm opcode r1 r2 r3 &&& 0xF000#16 = BitVec.ofNat 16 (opcode * 4096) := by
  apply BitVec.eq_of_toNat_eq
  rw [and_opcodeMask_toNat, registerForm_toNat ho h1 h2 h3, BitVec.toNat_ofNat]
  omega

/-- A register-form word belongs to the row of its opcode and `r1` field. -/
theorem registerForm_and_modeMask {opcode r1 r2 r3 : Nat} (ho : opcode < 16) (h1 : r1 < 16) (h2 : r2 < 16)
    (h3 : r3 < 16) : registerForm opcode r1 r2 r3 &&& 0xFF00#16 = BitVec.ofNat 16 (opcode * 4096 + r1 * 256) := by
  apply BitVec.eq_of_toNat_eq
  rw [and_modeMask_toNat, registerForm_toNat ho h1 h2 h3, BitVec.toNat_ofNat]
  omega

end Sys2Proof
end

