-- ==== Sys2Proof/Laws/Sparse.lean ====
section
/-! SUPPORT. The laws of the sparse stores: a read after a write, the canonical form is kept by every operation, and two
stores in canonical form that read alike entry by entry. -/

namespace Sys2Proof.Machine

variable {w : Nat}

theorem Sparse.read_erase (m : List (Nat × BitVec w)) (a b : Nat) :
    Sparse.read (Sparse.erase m a) b = if b = a then 0#w else Sparse.read m b := by
  induction m with
  | nil => simp [Sparse.erase, Sparse.read]
  | cons c rest ih =>
    obtain ⟨n, v⟩ := c
    unfold Sparse.erase at ih ⊢
    by_cases hna : n = a
    · subst hna
      by_cases hb : n = b
      · subst hb; simpa using ih
      · simp [Sparse.read, hb, ih, Ne.symm hb]
    · by_cases hb : n = b
      · subst hb; simp [Sparse.read, hna]
      · simp [Sparse.read, hna, hb, ih]

theorem Sparse.read_insert (m : List (Nat × BitVec w)) (a b : Nat) (v : BitVec w) :
    (∀ c ∈ m, c.1 ≠ a) → Sparse.read (Sparse.insert m a v) b = if b = a then v else Sparse.read m b := by
  induction m with
  | nil => intro _; simp [Sparse.insert, Sparse.read, eq_comm]
  | cons c rest ih =>
    intro h
    obtain ⟨n, u⟩ := c
    have hn : n ≠ a := h (n, u) (List.mem_cons_self ..)
    have ih := ih fun c hc => h c (List.mem_cons_of_mem _ hc)
    unfold Sparse.insert
    split
    · by_cases hb : n = b
      · subst hb; simp [Sparse.read, hn]
      · simp [Sparse.read, hb, ih]
    · simp only [Sparse.read, eq_comm (a := a)]

theorem Sparse.mem_erase {m : List (Nat × BitVec w)} {a : Nat} {c : Nat × BitVec w} :
    c ∈ Sparse.erase m a ↔ c ∈ m ∧ c.1 ≠ a := by
  simp [Sparse.erase]

/-- A read after a write: the written address reads the value written, every other address reads as before. -/
theorem Sparse.read_write (m : List (Nat × BitVec w)) (a b : Nat) (v : BitVec w) :
    Sparse.read (Sparse.write m a v) b = if b = a then v else Sparse.read m b := by
  unfold Sparse.write
  split
  · next h => rw [Sparse.read_erase, h]
  · rw [Sparse.read_insert _ _ _ _ fun c hc => (Sparse.mem_erase.mp hc).2, Sparse.read_erase]
    split <;> rfl

theorem Sparse.mem_insert {m : List (Nat × BitVec w)} {a : Nat} {v : BitVec w} {c : Nat × BitVec w} :
    c ∈ Sparse.insert m a v ↔ c = (a, v) ∨ c ∈ m := by
  induction m with
  | nil => simp [Sparse.insert]
  | cons d rest ih =>
    unfold Sparse.insert
    split <;> simp [ih, or_left_comm]

theorem Sparse.pairwise_insert {m : List (Nat × BitVec w)} {a : Nat} {v : BitVec w}
    (h : m.Pairwise (fun c d => c.1 < d.1)) (hne : ∀ c ∈ m, c.1 ≠ a) :
    (Sparse.insert m a v).Pairwise (fun c d => c.1 < d.1) := by
  induction m with
  | nil => simp [Sparse.insert]
  | cons d rest ih =>
    obtain ⟨n, u⟩ := d
    rw [List.pairwise_cons] at h
    have hn : n ≠ a := hne (n, u) (List.mem_cons_self ..)
    unfold Sparse.insert
    split
    · next hlt =>
      refine List.pairwise_cons.mpr ⟨fun c hc => ?_, ih h.2 fun c hc => hne c (List.mem_cons_of_mem _ hc)⟩
      rcases Sparse.mem_insert.mp hc with rfl | hc
      · exact hlt
      · exact h.1 c hc
    · refine List.pairwise_cons.mpr ⟨fun c hc => ?_, List.pairwise_cons.mpr h⟩
      rcases List.mem_cons.mp hc with rfl | hc
      · simp only; omega
      · have := h.1 c hc; simp only at this ⊢; omega

theorem Sparse.wf_erase {size : Nat} {m : List (Nat × BitVec w)} {a : Nat} (h : Sparse.wf size m) :
    Sparse.wf size (Sparse.erase m a) :=
  ⟨h.1.filter _, fun c hc => h.2 c (Sparse.mem_erase.mp hc).1⟩

/-- Every write keeps the canonical form. -/
theorem Sparse.wf_write {size : Nat} {m : List (Nat × BitVec w)} {a : Nat} {v : BitVec w} (h : Sparse.wf size m)
    (ha : a < size) : Sparse.wf size (Sparse.write m a v) := by
  unfold Sparse.write
  split
  · exact Sparse.wf_erase h
  · next hv =>
    have he := Sparse.wf_erase (a := a) h
    refine ⟨Sparse.pairwise_insert he.1 fun c hc => (Sparse.mem_erase.mp hc).2, fun c hc => ?_⟩
    rcases Sparse.mem_insert.mp hc with rfl | hc
    · exact ⟨ha, hv⟩
    · exact he.2 c hc

theorem Sparse.wf_nil (size : Nat) : Sparse.wf size ([] : List (Nat × BitVec w)) := by
  simp [Sparse.wf]

/-- An address below every listed one reads 0. -/
theorem Sparse.read_eq_zero_of_lt {m : List (Nat × BitVec w)} {a : Nat} (h : ∀ c ∈ m, a < c.1) : Sparse.read m a = 0#w := by
  induction m with
  | nil => rfl
  | cons c rest ih =>
    obtain ⟨n, v⟩ := c
    have hn : a < n := h (n, v) (List.mem_cons_self ..)
    rw [Sparse.read, if_neg (by omega)]
    exact ih fun c hc => h c (List.mem_cons_of_mem _ hc)

/-- An address no store of `size` cells lists reads 0. -/
theorem Sparse.read_eq_zero_of_size_le {size : Nat} {m : List (Nat × BitVec w)} {a : Nat} (h : Sparse.wf size m)
    (ha : size ≤ a) : Sparse.read m a = 0#w := by
  have h2 := h.2
  clear h
  induction m with
  | nil => rfl
  | cons c rest ih =>
    obtain ⟨n, v⟩ := c
    have hn : n < size := (h2 (n, v) (List.mem_cons_self ..)).1
    rw [Sparse.read, if_neg (by omega)]
    exact ih fun c hc => h2 c (List.mem_cons_of_mem _ hc)

/-- Data memory at reset, nothing listed, is in canonical form. -/
theorem Memory.wf_reset : Memory.wf State.reset.dataMemory :=
  Sparse.wf_nil _

/-- The program store at reset, nothing loaded, is in canonical form. -/
theorem ProgramStore.wf_reset : ProgramStore.wf State.reset.config.capacity State.reset.programStore :=
  Sparse.wf_nil _

/-- A store of one byte keeps data memory in canonical form. -/
theorem Memory.wf_storeByte {s : State} (h : Memory.wf s.dataMemory) (a : DataAddr) (v : Byte) :
    Memory.wf (s.storeByte a v).dataMemory :=
  Sparse.wf_write h a.isLt

/-- The same of `MemWrite`. -/
theorem Memory.wf_memWrite {s : State} (h : Memory.wf s.dataMemory) (off v : Byte) :
    Memory.wf (s.memWrite off v).dataMemory :=
  Memory.wf_storeByte h _ v

end Sys2Proof.Machine
end

