-- ==== Sys2Proof/Laws/State.lean ====
section
/-! SUPPORT. The small lemmas of State: what each update leaves in each field and in each view of the state (a register, a
data-memory byte, a program word), all true by rfl, so that no proof unfolds a record update. -/

namespace Sys2Proof.Machine

/-! ### writeReg -/

@[simp] theorem State.writeReg_regs (s : State) (r : RegIdx) (v : Byte) : (s.writeReg r v).regs = s.regs.set r v := rfl
@[simp] theorem State.writeReg_pc (s : State) (r : RegIdx) (v : Byte) : (s.writeReg r v).pc = s.pc := rfl
@[simp] theorem State.writeReg_stack (s : State) (r : RegIdx) (v : Byte) : (s.writeReg r v).stack = s.stack := rfl
@[simp] theorem State.writeReg_flag (s : State) (r : RegIdx) (v : Byte) : (s.writeReg r v).flag = s.flag := rfl
@[simp] theorem State.writeReg_activePage (s : State) (r : RegIdx) (v : Byte) : (s.writeReg r v).activePage = s.activePage := rfl
@[simp] theorem State.writeReg_status (s : State) (r : RegIdx) (v : Byte) : (s.writeReg r v).status = s.status := rfl
@[simp] theorem State.writeReg_dataMemory (s : State) (r : RegIdx) (v : Byte) : (s.writeReg r v).dataMemory = s.dataMemory := rfl
@[simp] theorem State.writeReg_programStore (s : State) (r : RegIdx) (v : Byte) : (s.writeReg r v).programStore = s.programStore := rfl
@[simp] theorem State.writeReg_config (s : State) (r : RegIdx) (v : Byte) : (s.writeReg r v).config = s.config := rfl
@[simp] theorem State.writeReg_byteAt (s : State) (r : RegIdx) (v : Byte) (b : DataAddr) : (s.writeReg r v).byteAt b = s.byteAt b := rfl
@[simp] theorem State.writeReg_programWord (s : State) (r : RegIdx) (v : Byte) (n : Nat) : (s.writeReg r v).programWord n = s.programWord n := rfl

/-! ### setPc -/

@[simp] theorem State.setPc_regs (s : State) (target : Nat) : (s.setPc target).regs = s.regs := rfl
@[simp] theorem State.setPc_pc (s : State) (target : Nat) : (s.setPc target).pc = target := rfl
@[simp] theorem State.setPc_stack (s : State) (target : Nat) : (s.setPc target).stack = s.stack := rfl
@[simp] theorem State.setPc_flag (s : State) (target : Nat) : (s.setPc target).flag = s.flag := rfl
@[simp] theorem State.setPc_activePage (s : State) (target : Nat) : (s.setPc target).activePage = s.activePage := rfl
@[simp] theorem State.setPc_status (s : State) (target : Nat) : (s.setPc target).status = s.status := rfl
@[simp] theorem State.setPc_dataMemory (s : State) (target : Nat) : (s.setPc target).dataMemory = s.dataMemory := rfl
@[simp] theorem State.setPc_programStore (s : State) (target : Nat) : (s.setPc target).programStore = s.programStore := rfl
@[simp] theorem State.setPc_config (s : State) (target : Nat) : (s.setPc target).config = s.config := rfl
@[simp] theorem State.setPc_readReg (s : State) (target : Nat) (q : RegIdx) : (s.setPc target).readReg q = s.readReg q := rfl
@[simp] theorem State.setPc_byteAt (s : State) (target : Nat) (b : DataAddr) : (s.setPc target).byteAt b = s.byteAt b := rfl
@[simp] theorem State.setPc_programWord (s : State) (target : Nat) (n : Nat) : (s.setPc target).programWord n = s.programWord n := rfl

/-! ### advance -/

@[simp] theorem State.advance_regs (s : State) : s.advance.regs = s.regs := rfl
@[simp] theorem State.advance_pc (s : State) : s.advance.pc = s.pc + 1 := rfl
@[simp] theorem State.advance_stack (s : State) : s.advance.stack = s.stack := rfl
@[simp] theorem State.advance_flag (s : State) : s.advance.flag = s.flag := rfl
@[simp] theorem State.advance_activePage (s : State) : s.advance.activePage = s.activePage := rfl
@[simp] theorem State.advance_status (s : State) : s.advance.status = s.status := rfl
@[simp] theorem State.advance_dataMemory (s : State) : s.advance.dataMemory = s.dataMemory := rfl
@[simp] theorem State.advance_programStore (s : State) : s.advance.programStore = s.programStore := rfl
@[simp] theorem State.advance_config (s : State) : s.advance.config = s.config := rfl
@[simp] theorem State.advance_readReg (s : State) (q : RegIdx) : s.advance.readReg q = s.readReg q := rfl
@[simp] theorem State.advance_byteAt (s : State) (b : DataAddr) : s.advance.byteAt b = s.byteAt b := rfl
@[simp] theorem State.advance_programWord (s : State) (n : Nat) : s.advance.programWord n = s.programWord n := rfl

/-! ### setFlag -/

@[simp] theorem State.setFlag_regs (s : State) (f : Bool) : (s.setFlag f).regs = s.regs := rfl
@[simp] theorem State.setFlag_pc (s : State) (f : Bool) : (s.setFlag f).pc = s.pc := rfl
@[simp] theorem State.setFlag_stack (s : State) (f : Bool) : (s.setFlag f).stack = s.stack := rfl
@[simp] theorem State.setFlag_flag (s : State) (f : Bool) : (s.setFlag f).flag = f := rfl
@[simp] theorem State.setFlag_activePage (s : State) (f : Bool) : (s.setFlag f).activePage = s.activePage := rfl
@[simp] theorem State.setFlag_status (s : State) (f : Bool) : (s.setFlag f).status = s.status := rfl
@[simp] theorem State.setFlag_dataMemory (s : State) (f : Bool) : (s.setFlag f).dataMemory = s.dataMemory := rfl
@[simp] theorem State.setFlag_programStore (s : State) (f : Bool) : (s.setFlag f).programStore = s.programStore := rfl
@[simp] theorem State.setFlag_config (s : State) (f : Bool) : (s.setFlag f).config = s.config := rfl
@[simp] theorem State.setFlag_readReg (s : State) (f : Bool) (q : RegIdx) : (s.setFlag f).readReg q = s.readReg q := rfl
@[simp] theorem State.setFlag_byteAt (s : State) (f : Bool) (b : DataAddr) : (s.setFlag f).byteAt b = s.byteAt b := rfl
@[simp] theorem State.setFlag_programWord (s : State) (f : Bool) (n : Nat) : (s.setFlag f).programWord n = s.programWord n := rfl

/-! ### setActivePage -/

@[simp] theorem State.setActivePage_regs (s : State) (p : Byte) : (s.setActivePage p).regs = s.regs := rfl
@[simp] theorem State.setActivePage_pc (s : State) (p : Byte) : (s.setActivePage p).pc = s.pc := rfl
@[simp] theorem State.setActivePage_stack (s : State) (p : Byte) : (s.setActivePage p).stack = s.stack := rfl
@[simp] theorem State.setActivePage_flag (s : State) (p : Byte) : (s.setActivePage p).flag = s.flag := rfl
@[simp] theorem State.setActivePage_activePage (s : State) (p : Byte) : (s.setActivePage p).activePage = p := rfl
@[simp] theorem State.setActivePage_status (s : State) (p : Byte) : (s.setActivePage p).status = s.status := rfl
@[simp] theorem State.setActivePage_dataMemory (s : State) (p : Byte) : (s.setActivePage p).dataMemory = s.dataMemory := rfl
@[simp] theorem State.setActivePage_programStore (s : State) (p : Byte) : (s.setActivePage p).programStore = s.programStore := rfl
@[simp] theorem State.setActivePage_config (s : State) (p : Byte) : (s.setActivePage p).config = s.config := rfl
@[simp] theorem State.setActivePage_readReg (s : State) (p : Byte) (q : RegIdx) : (s.setActivePage p).readReg q = s.readReg q := rfl
@[simp] theorem State.setActivePage_byteAt (s : State) (p : Byte) (b : DataAddr) : (s.setActivePage p).byteAt b = s.byteAt b := rfl
@[simp] theorem State.setActivePage_programWord (s : State) (p : Byte) (n : Nat) : (s.setActivePage p).programWord n = s.programWord n := rfl

/-! ### setStatus -/

@[simp] theorem State.setStatus_regs (s : State) (st : Status) : (s.setStatus st).regs = s.regs := rfl
@[simp] theorem State.setStatus_pc (s : State) (st : Status) : (s.setStatus st).pc = s.pc := rfl
@[simp] theorem State.setStatus_stack (s : State) (st : Status) : (s.setStatus st).stack = s.stack := rfl
@[simp] theorem State.setStatus_flag (s : State) (st : Status) : (s.setStatus st).flag = s.flag := rfl
@[simp] theorem State.setStatus_activePage (s : State) (st : Status) : (s.setStatus st).activePage = s.activePage := rfl
@[simp] theorem State.setStatus_status (s : State) (st : Status) : (s.setStatus st).status = st := rfl
@[simp] theorem State.setStatus_dataMemory (s : State) (st : Status) : (s.setStatus st).dataMemory = s.dataMemory := rfl
@[simp] theorem State.setStatus_programStore (s : State) (st : Status) : (s.setStatus st).programStore = s.programStore := rfl
@[simp] theorem State.setStatus_config (s : State) (st : Status) : (s.setStatus st).config = s.config := rfl
@[simp] theorem State.setStatus_readReg (s : State) (st : Status) (q : RegIdx) : (s.setStatus st).readReg q = s.readReg q := rfl
@[simp] theorem State.setStatus_byteAt (s : State) (st : Status) (b : DataAddr) : (s.setStatus st).byteAt b = s.byteAt b := rfl
@[simp] theorem State.setStatus_programWord (s : State) (st : Status) (n : Nat) : (s.setStatus st).programWord n = s.programWord n := rfl

/-! ### push -/

@[simp] theorem State.push_regs (s : State) (v : Addr12) : (s.push v).regs = s.regs := rfl
@[simp] theorem State.push_pc (s : State) (v : Addr12) : (s.push v).pc = s.pc := rfl
@[simp] theorem State.push_stack (s : State) (v : Addr12) : (s.push v).stack = s.stack ++ [v] := rfl
@[simp] theorem State.push_flag (s : State) (v : Addr12) : (s.push v).flag = s.flag := rfl
@[simp] theorem State.push_activePage (s : State) (v : Addr12) : (s.push v).activePage = s.activePage := rfl
@[simp] theorem State.push_status (s : State) (v : Addr12) : (s.push v).status = s.status := rfl
@[simp] theorem State.push_dataMemory (s : State) (v : Addr12) : (s.push v).dataMemory = s.dataMemory := rfl
@[simp] theorem State.push_programStore (s : State) (v : Addr12) : (s.push v).programStore = s.programStore := rfl
@[simp] theorem State.push_config (s : State) (v : Addr12) : (s.push v).config = s.config := rfl
@[simp] theorem State.push_readReg (s : State) (v : Addr12) (q : RegIdx) : (s.push v).readReg q = s.readReg q := rfl
@[simp] theorem State.push_byteAt (s : State) (v : Addr12) (b : DataAddr) : (s.push v).byteAt b = s.byteAt b := rfl
@[simp] theorem State.push_programWord (s : State) (v : Addr12) (n : Nat) : (s.push v).programWord n = s.programWord n := rfl

/-! ### dropTop -/

@[simp] theorem State.dropTop_regs (s : State) : s.dropTop.regs = s.regs := rfl
@[simp] theorem State.dropTop_pc (s : State) : s.dropTop.pc = s.pc := rfl
@[simp] theorem State.dropTop_stack (s : State) : s.dropTop.stack = s.stack.dropLast := rfl
@[simp] theorem State.dropTop_flag (s : State) : s.dropTop.flag = s.flag := rfl
@[simp] theorem State.dropTop_activePage (s : State) : s.dropTop.activePage = s.activePage := rfl
@[simp] theorem State.dropTop_status (s : State) : s.dropTop.status = s.status := rfl
@[simp] theorem State.dropTop_dataMemory (s : State) : s.dropTop.dataMemory = s.dataMemory := rfl
@[simp] theorem State.dropTop_programStore (s : State) : s.dropTop.programStore = s.programStore := rfl
@[simp] theorem State.dropTop_config (s : State) : s.dropTop.config = s.config := rfl
@[simp] theorem State.dropTop_readReg (s : State) (q : RegIdx) : s.dropTop.readReg q = s.readReg q := rfl
@[simp] theorem State.dropTop_byteAt (s : State) (b : DataAddr) : s.dropTop.byteAt b = s.byteAt b := rfl
@[simp] theorem State.dropTop_programWord (s : State) (n : Nat) : s.dropTop.programWord n = s.programWord n := rfl

/-! ### storeByte -/

@[simp] theorem State.storeByte_regs (s : State) (a : DataAddr) (v : Byte) : (s.storeByte a v).regs = s.regs := rfl
@[simp] theorem State.storeByte_pc (s : State) (a : DataAddr) (v : Byte) : (s.storeByte a v).pc = s.pc := rfl
@[simp] theorem State.storeByte_stack (s : State) (a : DataAddr) (v : Byte) : (s.storeByte a v).stack = s.stack := rfl
@[simp] theorem State.storeByte_flag (s : State) (a : DataAddr) (v : Byte) : (s.storeByte a v).flag = s.flag := rfl
@[simp] theorem State.storeByte_activePage (s : State) (a : DataAddr) (v : Byte) : (s.storeByte a v).activePage = s.activePage := rfl
@[simp] theorem State.storeByte_status (s : State) (a : DataAddr) (v : Byte) : (s.storeByte a v).status = s.status := rfl
@[simp] theorem State.storeByte_dataMemory (s : State) (a : DataAddr) (v : Byte) : (s.storeByte a v).dataMemory = Sparse.write s.dataMemory a.toNat v := rfl
@[simp] theorem State.storeByte_programStore (s : State) (a : DataAddr) (v : Byte) : (s.storeByte a v).programStore = s.programStore := rfl
@[simp] theorem State.storeByte_config (s : State) (a : DataAddr) (v : Byte) : (s.storeByte a v).config = s.config := rfl
@[simp] theorem State.storeByte_readReg (s : State) (a : DataAddr) (v : Byte) (q : RegIdx) : (s.storeByte a v).readReg q = s.readReg q := rfl
@[simp] theorem State.storeByte_programWord (s : State) (a : DataAddr) (v : Byte) (n : Nat) : (s.storeByte a v).programWord n = s.programWord n := rfl

/-! ### memWrite -/

@[simp] theorem State.memWrite_regs (s : State) (off v : Byte) : (s.memWrite off v).regs = s.regs := rfl
@[simp] theorem State.memWrite_pc (s : State) (off v : Byte) : (s.memWrite off v).pc = s.pc := rfl
@[simp] theorem State.memWrite_stack (s : State) (off v : Byte) : (s.memWrite off v).stack = s.stack := rfl
@[simp] theorem State.memWrite_flag (s : State) (off v : Byte) : (s.memWrite off v).flag = s.flag := rfl
@[simp] theorem State.memWrite_activePage (s : State) (off v : Byte) : (s.memWrite off v).activePage = s.activePage := rfl
@[simp] theorem State.memWrite_status (s : State) (off v : Byte) : (s.memWrite off v).status = s.status := rfl
@[simp] theorem State.memWrite_dataMemory (s : State) (off v : Byte) : (s.memWrite off v).dataMemory = Sparse.write s.dataMemory (s.activeAddr off).toNat v := rfl
@[simp] theorem State.memWrite_programStore (s : State) (off v : Byte) : (s.memWrite off v).programStore = s.programStore := rfl
@[simp] theorem State.memWrite_config (s : State) (off v : Byte) : (s.memWrite off v).config = s.config := rfl
@[simp] theorem State.memWrite_readReg (s : State) (off v : Byte) (q : RegIdx) : (s.memWrite off v).readReg q = s.readReg q := rfl
@[simp] theorem State.memWrite_programWord (s : State) (off v : Byte) (n : Nat) : (s.memWrite off v).programWord n = s.programWord n := rfl

/-! ### placeWord -/

@[simp] theorem State.placeWord_regs (s : State) (a : Nat) (w : Word) : (s.placeWord a w).regs = s.regs := rfl
@[simp] theorem State.placeWord_pc (s : State) (a : Nat) (w : Word) : (s.placeWord a w).pc = s.pc := rfl
@[simp] theorem State.placeWord_stack (s : State) (a : Nat) (w : Word) : (s.placeWord a w).stack = s.stack := rfl
@[simp] theorem State.placeWord_flag (s : State) (a : Nat) (w : Word) : (s.placeWord a w).flag = s.flag := rfl
@[simp] theorem State.placeWord_activePage (s : State) (a : Nat) (w : Word) : (s.placeWord a w).activePage = s.activePage := rfl
@[simp] theorem State.placeWord_status (s : State) (a : Nat) (w : Word) : (s.placeWord a w).status = s.status := rfl
@[simp] theorem State.placeWord_dataMemory (s : State) (a : Nat) (w : Word) : (s.placeWord a w).dataMemory = s.dataMemory := rfl
@[simp] theorem State.placeWord_programStore (s : State) (a : Nat) (w : Word) : (s.placeWord a w).programStore = Sparse.write s.programStore a w := rfl
@[simp] theorem State.placeWord_config (s : State) (a : Nat) (w : Word) : (s.placeWord a w).config = s.config := rfl
@[simp] theorem State.placeWord_readReg (s : State) (a : Nat) (w : Word) (q : RegIdx) : (s.placeWord a w).readReg q = s.readReg q := rfl
@[simp] theorem State.placeWord_byteAt (s : State) (a : Nat) (w : Word) (b : DataAddr) : (s.placeWord a w).byteAt b = s.byteAt b := rfl

/-! ### raiseFault -/

@[simp] theorem State.raiseFault_regs (s : State) (kind : FaultKind) (word : Word) (value : Nat) :
    (s.raiseFault kind word value).regs = s.regs := rfl
@[simp] theorem State.raiseFault_pc (s : State) (kind : FaultKind) (word : Word) (value : Nat) :
    (s.raiseFault kind word value).pc = s.pc + 1 := rfl
@[simp] theorem State.raiseFault_stack (s : State) (kind : FaultKind) (word : Word) (value : Nat) :
    (s.raiseFault kind word value).stack = s.stack := rfl
@[simp] theorem State.raiseFault_flag (s : State) (kind : FaultKind) (word : Word) (value : Nat) :
    (s.raiseFault kind word value).flag = s.flag := rfl
@[simp] theorem State.raiseFault_activePage (s : State) (kind : FaultKind) (word : Word) (value : Nat) :
    (s.raiseFault kind word value).activePage = s.activePage := rfl
@[simp] theorem State.raiseFault_status (s : State) (kind : FaultKind) (word : Word) (value : Nat) :
    (s.raiseFault kind word value).status = .faulted ⟨kind, s.pc, word, value⟩ := rfl
@[simp] theorem State.raiseFault_dataMemory (s : State) (kind : FaultKind) (word : Word) (value : Nat) :
    (s.raiseFault kind word value).dataMemory = s.dataMemory := rfl
@[simp] theorem State.raiseFault_programStore (s : State) (kind : FaultKind) (word : Word) (value : Nat) :
    (s.raiseFault kind word value).programStore = s.programStore := rfl
@[simp] theorem State.raiseFault_config (s : State) (kind : FaultKind) (word : Word) (value : Nat) :
    (s.raiseFault kind word value).config = s.config := rfl
@[simp] theorem State.raiseFault_readReg (s : State) (kind : FaultKind) (word : Word) (value : Nat) (q : RegIdx) :
    (s.raiseFault kind word value).readReg q = s.readReg q := rfl
@[simp] theorem State.raiseFault_byteAt (s : State) (kind : FaultKind) (word : Word) (value : Nat) (b : DataAddr) :
    (s.raiseFault kind word value).byteAt b = s.byteAt b := rfl
@[simp] theorem State.raiseFault_programWord (s : State) (kind : FaultKind) (word : Word) (value : Nat) (n : Nat) :
    (s.raiseFault kind word value).programWord n = s.programWord n := rfl

/-! ### The address of the active page -/

@[simp] theorem State.writeReg_activeAddr (s : State) (r : RegIdx) (v : Byte) (o : Byte) : (s.writeReg r v).activeAddr o = s.activeAddr o := rfl
@[simp] theorem State.setPc_activeAddr (s : State) (target : Nat) (o : Byte) : (s.setPc target).activeAddr o = s.activeAddr o := rfl
@[simp] theorem State.advance_activeAddr (s : State) (o : Byte) : s.advance.activeAddr o = s.activeAddr o := rfl
@[simp] theorem State.setFlag_activeAddr (s : State) (f : Bool) (o : Byte) : (s.setFlag f).activeAddr o = s.activeAddr o := rfl
@[simp] theorem State.setStatus_activeAddr (s : State) (st : Status) (o : Byte) : (s.setStatus st).activeAddr o = s.activeAddr o := rfl
@[simp] theorem State.push_activeAddr (s : State) (v : Addr12) (o : Byte) : (s.push v).activeAddr o = s.activeAddr o := rfl
@[simp] theorem State.dropTop_activeAddr (s : State) (o : Byte) : s.dropTop.activeAddr o = s.activeAddr o := rfl
@[simp] theorem State.storeByte_activeAddr (s : State) (a : DataAddr) (v : Byte) (o : Byte) : (s.storeByte a v).activeAddr o = s.activeAddr o := rfl
@[simp] theorem State.memWrite_activeAddr (s : State) (off v : Byte) (o : Byte) : (s.memWrite off v).activeAddr o = s.activeAddr o := rfl
@[simp] theorem State.placeWord_activeAddr (s : State) (a : Nat) (w : Word) (o : Byte) : (s.placeWord a w).activeAddr o = s.activeAddr o := rfl

end Sys2Proof.Machine
end

