-- ==== Sys2Proof/Laws/Ops.lean ====
section
/-! SUPPORT. For each shared operation, what it does, said once: registers, data memory, the control primitives, faults, the
end of a tick, and the operand forms. -/

namespace Sys2Proof.Machine

/-! ### Registers -/

/-- A register read after a register write. -/
theorem State.readReg_writeReg (s : State) (r q : RegIdx) (v : Byte) :
    (s.writeReg r v).readReg q = if q = r ∧ q ≠ 0 then v else s.readReg q := by
  unfold State.readReg State.writeReg
  by_cases h0 : q = 0
  · simp [h0]
  · by_cases h : q = r
    · subst h; simp [h0]
    · have : r.val ≠ q.val := fun e => h (Fin.ext e.symm)
      simp [h0, h, this]

/-! ### Data memory -/

/-- The flat address as a number (R40). -/
theorem dataAddr_toNat (page off : Byte) : (dataAddr page off).toNat = page.toNat * 256 + off.toNat := by
  unfold dataAddr
  rw [BitVec.toNat_append, Nat.shiftLeft_eq, Nat.mul_comm, ← Nat.two_pow_add_eq_or_of_lt off.isLt]

/-- A byte read after a byte store. -/
theorem State.byteAt_storeByte (s : State) (a b : DataAddr) (v : Byte) :
    (s.storeByte a v).byteAt b = if b = a then v else s.byteAt b := by
  unfold State.byteAt State.storeByte
  simp only [Sparse.read_write, BitVec.toNat_inj]

/-- A byte read after `MemWrite`. -/
theorem State.byteAt_memWrite (s : State) (off v : Byte) (b : DataAddr) :
    (s.memWrite off v).byteAt b = if b = s.activeAddr off then v else s.byteAt b :=
  s.byteAt_storeByte _ _ _

/-- A program word read after one is placed. -/
theorem State.programWord_placeWord (s : State) (a b : Nat) (w : Word) :
    (s.placeWord a w).programWord b = if b = a then w else s.programWord b :=
  Sparse.read_write _ _ _ _

/-! ### The call stack -/

/-- A full stack has exactly the finite depth (R90). -/
theorem State.stackFull_iff (s : State) : s.stackFull = true ↔ s.config.callStackDepth = some s.stack.length := by
  simp [State.stackFull]

/-- The top of the stack and the rest make the stack. -/
theorem State.top_eq_some_iff (s : State) (a : Addr12) :
    s.top = some a ↔ s.stack = s.stack.dropLast ++ [a] := by
  unfold State.top
  constructor
  · intro h
    obtain ⟨ys, hys⟩ := List.getLast?_eq_some_iff.mp h
    simp [hys]
  · intro h
    rw [h]; simp

/-- The stack has no top exactly when it is empty. -/
theorem State.top_eq_none_iff (s : State) : s.top = none ↔ s.stack = [] := by
  simp [State.top]

/-! ### The end of a tick -/

/-- Everything the end of a tick can do: nothing, or `status <- Terminated` (R73). -/
theorem State.finishTick_cases (s : State) :
    (s.status = .running ∧ s.config.capacity ≤ s.pc ∧ s.finishTick = s.setStatus .terminated) ∨
    (¬(s.status = .running ∧ s.config.capacity ≤ s.pc) ∧ s.finishTick = s) := by
  unfold State.finishTick
  split
  · next h => exact .inl ⟨h.1, h.2, rfl⟩
  · next h => exact .inr ⟨h, rfl⟩

@[simp] theorem State.finishTick_regs (s : State) : s.finishTick.regs = s.regs := by
  rcases s.finishTick_cases with ⟨-, -, h⟩ | ⟨-, h⟩ <;> simp [h]

@[simp] theorem State.finishTick_pc (s : State) : s.finishTick.pc = s.pc := by
  rcases s.finishTick_cases with ⟨-, -, h⟩ | ⟨-, h⟩ <;> simp [h]

@[simp] theorem State.finishTick_stack (s : State) : s.finishTick.stack = s.stack := by
  rcases s.finishTick_cases with ⟨-, -, h⟩ | ⟨-, h⟩ <;> simp [h]

@[simp] theorem State.finishTick_flag (s : State) : s.finishTick.flag = s.flag := by
  rcases s.finishTick_cases with ⟨-, -, h⟩ | ⟨-, h⟩ <;> simp [h]

@[simp] theorem State.finishTick_activePage (s : State) : s.finishTick.activePage = s.activePage := by
  rcases s.finishTick_cases with ⟨-, -, h⟩ | ⟨-, h⟩ <;> simp [h]

@[simp] theorem State.finishTick_dataMemory (s : State) : s.finishTick.dataMemory = s.dataMemory := by
  rcases s.finishTick_cases with ⟨-, -, h⟩ | ⟨-, h⟩ <;> simp [h]

@[simp] theorem State.finishTick_programStore (s : State) : s.finishTick.programStore = s.programStore := by
  rcases s.finishTick_cases with ⟨-, -, h⟩ | ⟨-, h⟩ <;> simp [h]

@[simp] theorem State.finishTick_config (s : State) : s.finishTick.config = s.config := by
  rcases s.finishTick_cases with ⟨-, -, h⟩ | ⟨-, h⟩ <;> simp [h]

@[simp] theorem State.finishTick_readReg (s : State) (q : RegIdx) : s.finishTick.readReg q = s.readReg q := by
  simp [State.readReg]

@[simp] theorem State.finishTick_byteAt (s : State) (a : DataAddr) : s.finishTick.byteAt a = s.byteAt a := by
  simp [State.byteAt]

@[simp] theorem State.finishTick_programWord (s : State) (a : Nat) : s.finishTick.programWord a = s.programWord a := by
  simp [State.programWord]

/-- A halted state is left as it is. -/
theorem State.finishTick_of_halted {s : State} (h : s.status ≠ .running) : s.finishTick = s := by
  rcases s.finishTick_cases with ⟨hr, -, -⟩ | ⟨-, e⟩
  · exact absurd hr h
  · exact e

/-! ### Operand forms -/

@[simp] theorem writeBack_pc (r : RegIdx) (v : Byte) (s : State) : (writeBack r v s).pc = s.pc + 1 := rfl
@[simp] theorem writeBack_stack (r : RegIdx) (v : Byte) (s : State) : (writeBack r v s).stack = s.stack := rfl
@[simp] theorem writeBack_flag (r : RegIdx) (v : Byte) (s : State) : (writeBack r v s).flag = s.flag := rfl
@[simp] theorem writeBack_activePage (r : RegIdx) (v : Byte) (s : State) :
    (writeBack r v s).activePage = s.activePage := rfl
@[simp] theorem writeBack_status (r : RegIdx) (v : Byte) (s : State) : (writeBack r v s).status = s.status := rfl
@[simp] theorem writeBack_dataMemory (r : RegIdx) (v : Byte) (s : State) :
    (writeBack r v s).dataMemory = s.dataMemory := rfl
@[simp] theorem writeBack_programStore (r : RegIdx) (v : Byte) (s : State) :
    (writeBack r v s).programStore = s.programStore := rfl
@[simp] theorem writeBack_config (r : RegIdx) (v : Byte) (s : State) : (writeBack r v s).config = s.config := rfl
@[simp] theorem writeBack_byteAt (r : RegIdx) (v : Byte) (s : State) (a : DataAddr) :
    (writeBack r v s).byteAt a = s.byteAt a := rfl

/-- The registers after the multiplexer's write. -/
theorem writeBack_readReg (r : RegIdx) (v : Byte) (s : State) (q : RegIdx) :
    (writeBack r v s).readReg q = if q = r ∧ q ≠ 0 then v else s.readReg q :=
  s.advance.readReg_writeReg r q v

/-- The three-operand form is a write of its function's value. -/
@[simp] theorem aluThree_eq_writeBack (f : Byte → Byte → Byte) (r1 r2 r3 : RegIdx) (s : State) :
    aluThree f r1 r2 r3 s = writeBack r1 (f (s.readReg r2) (s.readReg r3)) s := rfl

/-- The two-operand form is a write of its function's value. -/
@[simp] theorem aluTwo_eq_writeBack (f : Byte → Byte) (r1 r2 : RegIdx) (s : State) :
    aluTwo f r1 r2 s = writeBack r1 (f (s.readReg r2)) s := rfl

@[simp] theorem branchTo_pc (a : Addr12) (n : Nat) (s : State) : (branchTo a n s).pc = n := rfl
@[simp] theorem branchTo_stack (a : Addr12) (n : Nat) (s : State) : (branchTo a n s).stack = s.stack ++ [a] := rfl
@[simp] theorem branchTo_flag (a : Addr12) (n : Nat) (s : State) : (branchTo a n s).flag = s.flag := rfl
@[simp] theorem branchTo_activePage (a : Addr12) (n : Nat) (s : State) : (branchTo a n s).activePage = s.activePage := rfl
@[simp] theorem branchTo_status (a : Addr12) (n : Nat) (s : State) : (branchTo a n s).status = s.status := rfl
@[simp] theorem branchTo_dataMemory (a : Addr12) (n : Nat) (s : State) : (branchTo a n s).dataMemory = s.dataMemory := rfl
@[simp] theorem branchTo_programStore (a : Addr12) (n : Nat) (s : State) :
    (branchTo a n s).programStore = s.programStore := rfl
@[simp] theorem branchTo_config (a : Addr12) (n : Nat) (s : State) : (branchTo a n s).config = s.config := rfl
@[simp] theorem branchTo_regs (a : Addr12) (n : Nat) (s : State) : (branchTo a n s).regs = s.regs := rfl
@[simp] theorem branchTo_readReg (a : Addr12) (n : Nat) (s : State) (q : RegIdx) :
    (branchTo a n s).readReg q = s.readReg q := rfl
@[simp] theorem branchTo_byteAt (a : Addr12) (n : Nat) (s : State) (b : DataAddr) :
    (branchTo a n s).byteAt b = s.byteAt b := rfl

@[simp] theorem compareInto_pc (m : CompareMode) (a b : RegIdx) (s : State) : (compareInto m a b s).pc = s.pc + 1 := rfl
@[simp] theorem compareInto_stack (m : CompareMode) (a b : RegIdx) (s : State) : (compareInto m a b s).stack = s.stack := rfl
@[simp] theorem compareInto_flag (m : CompareMode) (a b : RegIdx) (s : State) :
    (compareInto m a b s).flag = compareHolds m (s.readReg a) (s.readReg b) := rfl
@[simp] theorem compareInto_activePage (m : CompareMode) (a b : RegIdx) (s : State) :
    (compareInto m a b s).activePage = s.activePage := rfl
@[simp] theorem compareInto_status (m : CompareMode) (a b : RegIdx) (s : State) :
    (compareInto m a b s).status = s.status := rfl
@[simp] theorem compareInto_dataMemory (m : CompareMode) (a b : RegIdx) (s : State) :
    (compareInto m a b s).dataMemory = s.dataMemory := rfl
@[simp] theorem compareInto_programStore (m : CompareMode) (a b : RegIdx) (s : State) :
    (compareInto m a b s).programStore = s.programStore := rfl
@[simp] theorem compareInto_config (m : CompareMode) (a b : RegIdx) (s : State) :
    (compareInto m a b s).config = s.config := rfl
@[simp] theorem compareInto_readReg (m : CompareMode) (a b : RegIdx) (s : State) (q : RegIdx) :
    (compareInto m a b s).readReg q = s.readReg q := rfl
@[simp] theorem compareInto_byteAt (m : CompareMode) (a b : RegIdx) (s : State) (c : DataAddr) :
    (compareInto m a b s).byteAt c = s.byteAt c := rfl

end Sys2Proof.Machine
end

