-- ==== Sys2Proof/Laws/Exec.lean ====
section
/-! SUPPORT. What each meaning and one step can do, said once. The instructions without a branch have one equation each, true
by rfl; DIV, RET, BIR and `step` have one lemma that lists their cases. -/

namespace Sys2Proof.Machine

/-! ### Meanings with one case -/

theorem exec_add (r1 r2 r3 : RegIdx) (s : State) :
    exec (.add r1 r2 r3) s = .next (writeBack r1 (s.readReg r2 + s.readReg r3) s) := rfl
theorem exec_sub (r1 r2 r3 : RegIdx) (s : State) :
    exec (.sub r1 r2 r3) s = .next (writeBack r1 (s.readReg r2 - s.readReg r3) s) := rfl
theorem exec_and (r1 r2 r3 : RegIdx) (s : State) :
    exec (.and r1 r2 r3) s = .next (writeBack r1 (s.readReg r2 &&& s.readReg r3) s) := rfl
theorem exec_orr (r1 r2 r3 : RegIdx) (s : State) :
    exec (.orr r1 r2 r3) s = .next (writeBack r1 (s.readReg r2 ||| s.readReg r3) s) := rfl
theorem exec_xor (r1 r2 r3 : RegIdx) (s : State) :
    exec (.xor r1 r2 r3) s = .next (writeBack r1 (s.readReg r2 ^^^ s.readReg r3) s) := rfl
theorem exec_not (r1 r2 : RegIdx) (s : State) :
    exec (.not r1 r2) s = .next (writeBack r1 (~~~(s.readReg r2)) s) := rfl
theorem exec_lsh (r1 r2 r3 : RegIdx) (s : State) :
    exec (.lsh r1 r2 r3) s = .next (writeBack r1 (shiftLeft s.config.shiftGe8 (s.readReg r2) (s.readReg r3)) s) := rfl
theorem exec_rsh (r1 r2 r3 : RegIdx) (s : State) :
    exec (.rsh r1 r2 r3) s = .next (writeBack r1 (shiftRight s.config.shiftGe8 (s.readReg r2) (s.readReg r3)) s) := rfl
theorem exec_ldm (r1 r2 : RegIdx) (s : State) :
    exec (.ldm r1 r2) s = .next (writeBack r1 (s.memRead (s.readReg r2)) s) := rfl
theorem exec_str (r1 r2 : RegIdx) (s : State) :
    exec (.str r1 r2) s = .next (s.advance.memWrite (s.readReg r1) (s.readReg r2)) := rfl
theorem exec_ldi (r1 : RegIdx) (imm8 : Byte) (s : State) :
    exec (.ldi r1 imm8) s = .next (writeBack r1 imm8 s) := rfl
theorem exec_cmpEq (r2 r3 : RegIdx) (s : State) : exec (.cmpEq r2 r3) s = .next (compareInto .eq r2 r3 s) := rfl
theorem exec_cmpGt (r2 r3 : RegIdx) (s : State) : exec (.cmpGt r2 r3) s = .next (compareInto .gt r2 r3 s) := rfl
theorem exec_cmpLt (r2 r3 : RegIdx) (s : State) : exec (.cmpLt r2 r3) s = .next (compareInto .lt r2 r3 s) := rfl
theorem exec_cmpGe (r2 r3 : RegIdx) (s : State) : exec (.cmpGe r2 r3) s = .next (compareInto .ge r2 r3 s) := rfl
theorem exec_cmpLe (r2 r3 : RegIdx) (s : State) : exec (.cmpLe r2 r3) s = .next (compareInto .le r2 r3 s) := rfl
theorem exec_cmpNe (r2 r3 : RegIdx) (s : State) : exec (.cmpNe r2 r3) s = .next (compareInto .ne r2 r3 s) := rfl
theorem exec_spg (r1 : RegIdx) (s : State) : exec (.spg r1) s = .next (s.advance.setActivePage (s.readReg r1)) := rfl

/-! ### Meanings with several cases -/

/-- Everything DIV can do (R82). -/
theorem exec_div_cases (r1 r2 r3 : RegIdx) (s : State) :
    (s.readReg r3 = 0#8 ∧
      exec (.div r1 r2 r3) s = .next (s.raiseFault .divideByZero (encode (.div r1 r2 r3)) r3.val)) ∨
    (s.readReg r3 ≠ 0#8 ∧
      exec (.div r1 r2 r3) s = .next (writeBack r1 (quotient (s.readReg r2) (s.readReg r3)) s)) := by
  by_cases h : s.readReg r3 = 0#8
  · exact .inl ⟨h, by simp [exec, execDiv, h]⟩
  · exact .inr ⟨h, by simp [exec, execDiv, h, aluThree]⟩

/-- Everything RET can do (R89). -/
theorem exec_ret_cases (s : State) :
    (s.stack = [] ∧ exec .ret s = .next s.advance) ∨
    (∃ a : Addr12, s.stack = s.stack.dropLast ++ [a] ∧ exec .ret s = .next (s.dropTop.setPc a.toNat)) := by
  rcases h : s.top with _ | a
  · exact .inl ⟨s.top_eq_none_iff.mp h, by simp [exec, execRet, h]⟩
  · exact .inr ⟨a, (s.top_eq_some_iff a).mp h, by simp [exec, execRet, h]⟩

/-- Everything BIR can do (R90, R91): spin, overflow, take the branch at either setting, underflow. -/
theorem exec_bir_cases (a : Addr12) (s : State) :
    (s.flag = false ∧ exec (.bir a) s = .next s) ∨
    (s.flag = true ∧ s.stackFull = true ∧
      exec (.bir a) s = .next (s.raiseFault .callStackOverflow (encode (.bir a)) a.toNat)) ∨
    (s.flag = true ∧ s.stackFull = false ∧ s.config.birTakenNext = .target ∧
      exec (.bir a) s = .next (branchTo a a.toNat s)) ∨
    (s.flag = true ∧ s.stackFull = false ∧ s.config.birTakenNext = .targetMinus1 ∧ a = 0#12 ∧
      exec (.bir a) s = .next (s.raiseFault .pcUnderflow (encode (.bir a)) 0)) ∨
    (s.flag = true ∧ s.stackFull = false ∧ s.config.birTakenNext = .targetMinus1 ∧ a ≠ 0#12 ∧
      exec (.bir a) s = .next (branchTo a (a.toNat - 1) s)) := by
  rcases hf : s.flag with _ | _
  · exact .inl ⟨rfl, by simp only [exec, execBir, hf, Bool.false_eq_true, if_false]; rfl⟩
  rcases hs : s.stackFull with _ | _
  · rcases hb : s.config.birTakenNext with _ | _
    · exact .inr (.inr (.inl ⟨rfl, rfl, rfl, by simp [exec, execBir, hf, hs, hb]⟩))
    · by_cases ha : a = 0#12
      · exact .inr (.inr (.inr (.inl ⟨rfl, rfl, rfl, ha, by simp [exec, execBir, hf, hs, hb, ha]⟩)))
      · exact .inr (.inr (.inr (.inr ⟨rfl, rfl, rfl, ha, by simp [exec, execBir, hf, hs, hb, ha]⟩)))
  · exact .inr (.inl ⟨rfl, rfl, by simp [exec, execBir, hf, hs]⟩)

/-! ### One step -/

/-- A state fetches exactly when it is Running and its pc is inside the store. -/
theorem State.fetches_iff (s : State) : s.fetches = true ↔ s.status = .running ∧ s.pc < s.config.capacity := by
  simp [State.fetches]

/-- Everything a step can do: a tick that fetches an instruction, an illegal compare mode or an illegal opcode, or no fetch. -/
theorem step_cases (s : State) :
    (s.fetches = true ∧ ∃ i, decode s.fetchWord = .instr i ∧ step s = finishOutcome (exec i s)) ∨
    (s.fetches = true ∧ ∃ m, decode s.fetchWord = .illegalCompareMode m ∧
      step s = .next (s.raiseFault .illegalCompareMode s.fetchWord m.val)) ∨
    (s.fetches = true ∧ ∃ op, decode s.fetchWord = .illegalOpcode op ∧
      step s = .next (s.raiseFault .illegalOpcode s.fetchWord op.val)) ∨
    (s.fetches = false ∧ step s = .next s.finishTick) := by
  rcases hf : s.fetches with _ | _
  · exact .inr (.inr (.inr ⟨rfl, by simp [step, hf]⟩))
  rcases hd : decode s.fetchWord with i | m | op
  · exact .inl ⟨rfl, i, rfl, by simp [step, hf, hd, executeDecoded]⟩
  · refine .inr (.inl ⟨rfl, m, rfl, ?_⟩)
    simp only [step, hf, hd, executeDecoded, execIllegalCompareMode, finishOutcome, if_true]
    rw [State.finishTick_of_halted (by simp)]
  · refine .inr (.inr (.inl ⟨rfl, op, rfl, ?_⟩))
    simp only [step, hf, hd, executeDecoded, execIllegalOpcode, finishOutcome, if_true]
    rw [State.finishTick_of_halted (by simp)]

/-! ### Runs of the core -/

/-- A run of no steps. -/
theorem core_run_zero (s : State) : Sys2Proof.core.run 0 s = .next s := rfl

/-- A run's first step. -/
theorem core_run_succ {s t : State} (k : Nat) (h : step s = .next t) :
    Sys2Proof.core.run (k + 1) s = Sys2Proof.core.run k t := by
  have h' : Sys2Proof.core.step s = .next t := h
  simp only [Host.Core.run, h']

/-- One tick is the state `step` answers. -/
theorem tick_of_step {s t : State} (h : step s = .next t) : tick s = t := by
  simp [tick, h]

theorem ticks_zero (s : State) : ticks 0 s = s := rfl

theorem ticks_succ (k : Nat) (s : State) : ticks (k + 1) s = ticks k (tick s) := rfl

/-- The last of several ticks. -/
theorem ticks_succ_last (k : Nat) (s : State) : ticks (k + 1) s = tick (ticks k s) := by
  induction k generalizing s with
  | zero => rfl
  | succ k ih => rw [ticks_succ, ih]; rfl

end Sys2Proof.Machine
end

