-- ==== Sys2Proof/Laws/PerInstr.lean ====
section
/-! SUPPORT. Per-instruction families: `EncodesInRow`, every instruction's word lies in its row of spec/opcode_table.json
(mask and match of its mnemonic), one lemma per constructor. -/

namespace Sys2Proof.Laws.EncodesInRow

/-- The instruction's word belongs to the table row of its mnemonic (30_encoding.md R59). -/
def Statement (i : Instr) : Prop :=
  ∃ row ∈ opcodeTable, row.mnemonic = i.mnemonic ∧ encode i &&& row.mask = row.bits

theorem add (r1 r2 r3 : RegIdx) : Statement (.add r1 r2 r3) :=
  ⟨⟨"ADD", 0xF000#16, 0x0000#16⟩, by simp [opcodeTable], rfl,
    registerForm_and_opcodeMask (by decide) r1.isLt r2.isLt r3.isLt⟩

theorem sub (r1 r2 r3 : RegIdx) : Statement (.sub r1 r2 r3) :=
  ⟨⟨"SUB", 0xF000#16, 0x1000#16⟩, by simp [opcodeTable], rfl,
    registerForm_and_opcodeMask (by decide) r1.isLt r2.isLt r3.isLt⟩

theorem div (r1 r2 r3 : RegIdx) : Statement (.div r1 r2 r3) :=
  ⟨⟨"DIV", 0xF000#16, 0x2000#16⟩, by simp [opcodeTable], rfl,
    registerForm_and_opcodeMask (by decide) r1.isLt r2.isLt r3.isLt⟩

theorem and (r1 r2 r3 : RegIdx) : Statement (.and r1 r2 r3) :=
  ⟨⟨"AND", 0xF000#16, 0x3000#16⟩, by simp [opcodeTable], rfl,
    registerForm_and_opcodeMask (by decide) r1.isLt r2.isLt r3.isLt⟩

theorem orr (r1 r2 r3 : RegIdx) : Statement (.orr r1 r2 r3) :=
  ⟨⟨"ORR", 0xF000#16, 0x4000#16⟩, by simp [opcodeTable], rfl,
    registerForm_and_opcodeMask (by decide) r1.isLt r2.isLt r3.isLt⟩

theorem xor (r1 r2 r3 : RegIdx) : Statement (.xor r1 r2 r3) :=
  ⟨⟨"XOR", 0xF000#16, 0x5000#16⟩, by simp [opcodeTable], rfl,
    registerForm_and_opcodeMask (by decide) r1.isLt r2.isLt r3.isLt⟩

theorem not (r1 r2 : RegIdx) : Statement (.not r1 r2) :=
  ⟨⟨"NOT", 0xF000#16, 0x6000#16⟩, by simp [opcodeTable], rfl,
    registerForm_and_opcodeMask (by decide) r1.isLt r2.isLt (by decide)⟩

theorem lsh (r1 r2 r3 : RegIdx) : Statement (.lsh r1 r2 r3) :=
  ⟨⟨"LSH", 0xF000#16, 0x7000#16⟩, by simp [opcodeTable], rfl,
    registerForm_and_opcodeMask (by decide) r1.isLt r2.isLt r3.isLt⟩

theorem rsh (r1 r2 r3 : RegIdx) : Statement (.rsh r1 r2 r3) :=
  ⟨⟨"RSH", 0xF000#16, 0x8000#16⟩, by simp [opcodeTable], rfl,
    registerForm_and_opcodeMask (by decide) r1.isLt r2.isLt r3.isLt⟩

theorem ret : Statement .ret :=
  ⟨⟨"RET", 0xF000#16, 0x9000#16⟩, by simp [opcodeTable], rfl,
    registerForm_and_opcodeMask (by decide) (by decide) (by decide) (by decide)⟩

theorem ldm (r1 r2 : RegIdx) : Statement (.ldm r1 r2) :=
  ⟨⟨"LDM", 0xF000#16, 0xB000#16⟩, by simp [opcodeTable], rfl,
    registerForm_and_opcodeMask (by decide) r1.isLt r2.isLt (by decide)⟩

theorem str (r1 r2 : RegIdx) : Statement (.str r1 r2) :=
  ⟨⟨"STR", 0xF000#16, 0xC000#16⟩, by simp [opcodeTable], rfl,
    registerForm_and_opcodeMask (by decide) r1.isLt r2.isLt (by decide)⟩

theorem spg (r1 : RegIdx) : Statement (.spg r1) :=
  ⟨⟨"SPG", 0xF000#16, 0xF000#16⟩, by simp [opcodeTable], rfl,
    registerForm_and_opcodeMask (by decide) r1.isLt (by decide) (by decide)⟩

theorem cmpEq (r2 r3 : RegIdx) : Statement (.cmpEq r2 r3) :=
  ⟨⟨"CMP.EQ", 0xFF00#16, 0xE000#16⟩, by simp [opcodeTable], rfl,
    registerForm_and_modeMask (by decide) (by decide) r2.isLt r3.isLt⟩

theorem cmpGt (r2 r3 : RegIdx) : Statement (.cmpGt r2 r3) :=
  ⟨⟨"CMP.GT", 0xFF00#16, 0xE100#16⟩, by simp [opcodeTable], rfl,
    registerForm_and_modeMask (by decide) (by decide) r2.isLt r3.isLt⟩

theorem cmpLt (r2 r3 : RegIdx) : Statement (.cmpLt r2 r3) :=
  ⟨⟨"CMP.LT", 0xFF00#16, 0xE200#16⟩, by simp [opcodeTable], rfl,
    registerForm_and_modeMask (by decide) (by decide) r2.isLt r3.isLt⟩

theorem cmpGe (r2 r3 : RegIdx) : Statement (.cmpGe r2 r3) :=
  ⟨⟨"CMP.GE", 0xFF00#16, 0xE300#16⟩, by simp [opcodeTable], rfl,
    registerForm_and_modeMask (by decide) (by decide) r2.isLt r3.isLt⟩

theorem cmpLe (r2 r3 : RegIdx) : Statement (.cmpLe r2 r3) :=
  ⟨⟨"CMP.LE", 0xFF00#16, 0xE400#16⟩, by simp [opcodeTable], rfl,
    registerForm_and_modeMask (by decide) (by decide) r2.isLt r3.isLt⟩

theorem cmpNe (r2 r3 : RegIdx) : Statement (.cmpNe r2 r3) :=
  ⟨⟨"CMP.NE", 0xFF00#16, 0xE500#16⟩, by simp [opcodeTable], rfl,
    registerForm_and_modeMask (by decide) (by decide) r2.isLt r3.isLt⟩

theorem bir (addr12 : Addr12) : Statement (.bir addr12) := by
  refine ⟨⟨"BIR", 0xF000#16, 0xA000#16⟩, by simp [opcodeTable], rfl, BitVec.eq_of_toNat_eq ?_⟩
  have := addr12.isLt
  simp only [encode, and_opcodeMask_toNat, BitVec.toNat_ofNat]
  omega

theorem ldi (r1 : RegIdx) (imm8 : Byte) : Statement (.ldi r1 imm8) := by
  refine ⟨⟨"LDI", 0xF000#16, 0xD000#16⟩, by simp [opcodeTable], rfl, BitVec.eq_of_toNat_eq ?_⟩
  have := r1.isLt
  have := imm8.isLt
  simp only [encode, and_opcodeMask_toNat, BitVec.toNat_ofNat]
  omega

end Sys2Proof.Laws.EncodesInRow
end

