-- ==== Sys2Proof/Tests/Slice0.lean ====
section
/-! SUPPORT. The model's own tests. Expected results are transcribed from the spec: 95_test_vectors.md and the examples of the
rules. The last part gives, for each obligation with hypotheses, a concrete state and operands that meet them. -/

namespace Sys2Proof.Tests

open Sys2Proof.Machine

/-! ### Well-formedness (00_scope.md R8): an ill-formed term for each check -/

theorem test_wellFormed_refuses_capacity_zero : ¬ Config.WellFormed { Config.full with capacity := 0 } := by decide
theorem test_wellFormed_refuses_capacity_4097 : ¬ Config.WellFormed { Config.full with capacity := 4097 } := by decide
theorem test_wellFormed_accepts_bounds :
    Config.WellFormed { Config.full with capacity := 1 } ∧ Config.WellFormed Config.full := by decide

/-! ### Decoding: one word per constructor, written out from the encodings of 30_encoding.md R59 (opcode r1 r2 r3) -/

theorem test_decode_add : decode 0b0000_0011_0001_0010#16 = .instr (.add 3 1 2) := by decide
theorem test_decode_sub : decode 0b0001_0001_0010_0011#16 = .instr (.sub 1 2 3) := by decide
theorem test_decode_div : decode 0b0010_0010_0001_0000#16 = .instr (.div 2 1 0) := by decide
theorem test_decode_and : decode 0b0011_0001_0010_0011#16 = .instr (.and 1 2 3) := by decide
theorem test_decode_orr : decode 0b0100_0001_0010_0011#16 = .instr (.orr 1 2 3) := by decide
theorem test_decode_xor : decode 0b0101_0001_0010_0011#16 = .instr (.xor 1 2 3) := by decide
theorem test_decode_not : decode 0b0110_0001_0010_0101#16 = .instr (.not 1 2) := by decide
theorem test_decode_lsh : decode 0b0111_0011_0001_0010#16 = .instr (.lsh 3 1 2) := by decide
theorem test_decode_rsh : decode 0b1000_0111_0001_0010#16 = .instr (.rsh 7 1 2) := by decide
theorem test_decode_ret : decode 0b1001_1010_1011_1100#16 = .instr .ret := by decide
theorem test_decode_bir : decode 0b1010_0001_0010_0011#16 = .instr (.bir 291#12) := by decide
theorem test_decode_ldm : decode 0b1011_0100_0010_0000#16 = .instr (.ldm 4 2) := by decide
theorem test_decode_str : decode 0b1100_0010_0011_0000#16 = .instr (.str 2 3) := by decide
theorem test_decode_ldi : decode 0b1101_0001_0000_0101#16 = .instr (.ldi 1 5#8) := by decide
theorem test_decode_cmpEq : decode 0b1110_0000_0010_0011#16 = .instr (.cmpEq 2 3) := by decide
theorem test_decode_cmpGt : decode 0b1110_0001_0010_0011#16 = .instr (.cmpGt 2 3) := by decide
theorem test_decode_cmpLt : decode 0b1110_0010_0010_0011#16 = .instr (.cmpLt 2 3) := by decide
theorem test_decode_cmpGe : decode 0b1110_0011_0010_0011#16 = .instr (.cmpGe 2 3) := by decide
theorem test_decode_cmpLe : decode 0b1110_0100_0010_0011#16 = .instr (.cmpLe 2 3) := by decide
theorem test_decode_cmpNe : decode 0b1110_0101_0010_0011#16 = .instr (.cmpNe 2 3) := by decide
theorem test_decode_spg : decode 0b1111_0001_1111_1111#16 = .instr (.spg 1) := by decide
theorem test_decode_illegal_mode_bounds :
    decode 0xE600#16 = .illegalCompareMode 6 ∧ decode 0xEFFF#16 = .illegalCompareMode 15 := by decide

/-- The encodings R61 lists. -/
theorem test_encode_examples :
    encode (.add 3 1 2) = 0x0312#16 ∧ encode (.ldi 1 5#8) = 0xD105#16 ∧ encode (.bir 0x123#12) = 0xA123#16 := by decide

/-- The table's rows are found by number, and an illegal word is none of them. -/
theorem test_decodeTableWord :
    decodeTableWord 16 0x2210 = some (.div 2 1 0) ∧ decodeTableWord 16 0xE923 = none := by decide

/-! ### One tick on a small state (95_test_vectors.md section 2) -/

/-- A core at reset with the word `w` at address 0 and `x[2] = a`, `x[3] = b`. -/
def start (w : Nat) (a b : Byte) : State :=
  ((State.reset.writeReg 2 a).writeReg 3 b).withFetchWord 16 w

/-- The same at the settings `TargetMinus1`, `Mod8`, depth 4. -/
def startAlt (w : Nat) (a b : Byte) : State :=
  { start w a b with
    config := { Config.full with birTakenNext := .targetMinus1, shiftGe8 := .mod8, callStackDepth := some 4 } }

/-- A core about to run `w` at address `pc` with flag `f` and call stack `st`. -/
def startAt (w pc : Nat) (f : Bool) (st : List Addr12) : State :=
  { ((State.reset.setPc pc).setFlag f).withFetchWord 16 w with stack := st }

theorem test_add_wraps : (tick (start 0x0123 0xC8 0x64)).readReg 1 = 0x2C#8 := by decide
theorem test_add_to_r0 : (tick (start 0x0023 1 2)).readReg 0 = 0#8 := by decide
theorem test_sub_wraps : (tick (start 0x1123 3 5)).readReg 1 = 0xFE#8 := by decide
theorem test_div_truncates : (tick (start 0x2123 0xC8 7)).readReg 1 = 0x1C#8 := by decide
theorem test_div_by_zero :
    (tick (start 0x2123 9 0)).status = .faulted ⟨.divideByZero, 0, 0x2123#16, 3⟩ := by decide
theorem test_and : (tick (start 0x3123 0xCA 0x0F)).readReg 1 = 0x0A#8 := by decide
theorem test_orr : (tick (start 0x4123 0xC0 0x05)).readReg 1 = 0xC5#8 := by decide
theorem test_xor : (tick (start 0x5123 0xAA 0xFF)).readReg 1 = 0x55#8 := by decide
theorem test_not : (tick (start 0x6120 0xA5 0x77)).readReg 1 = 0x5A#8 := by decide
theorem test_lsh_loses_bit7 : (tick (start 0x7123 0x81 1)).readReg 1 = 0x02#8 := by decide
theorem test_lsh_by_nine :
    (tick (start 0x7123 1 9)).readReg 1 = 0#8 ∧ (tick (startAlt 0x7123 1 9)).readReg 1 = 2#8 := by decide
theorem test_rsh_is_logical : (tick (start 0x8123 0x80 1)).readReg 1 = 0x40#8 := by decide
theorem test_rsh_by_eight :
    (tick (start 0x8123 0xFF 8)).readReg 1 = 0#8 ∧ (tick (startAlt 0x8123 0xFF 8)).readReg 1 = 0xFF#8 := by decide

/-- Vector T3: the top of the stack is its last entry. -/
theorem test_ret_pops_top :
    (tick (startAt 0x9000 8 false [3, 7])).pc = 7 ∧ (tick (startAt 0x9000 8 false [3, 7])).stack = [3] := by decide
/-- Vector T4: the last word of the store ends the run. -/
theorem test_ret_at_end : (tick (startAt 0x9000 4095 false [])).status = .terminated := by decide
/-- Vector B1. -/
theorem test_bir_taken :
    (tick (startAt 0xA004 2 true [])).pc = 4 ∧ (tick (startAt 0xA004 2 true [])).stack = [4] := by decide
/-- Vector B2. -/
theorem test_bir_spins : tick (startAt 0xA004 2 false []) = startAt 0xA004 2 false [] := by decide
/-- Vectors M2 and M3: the byte of the active page, and not another page's. -/
theorem test_ldm_reads_active_page :
    (tick (((start 0xB420 0x10 0).setActivePage 7).memWrite 0x10 0xAB)).readReg 4 = 0xAB#8 ∧
    (tick ((((start 0xB420 0x10 0).setActivePage 7).memWrite 0x10 0xAB).setActivePage 0)).readReg 4 = 0#8 := by decide
/-- Vector M1: page 7, offset 0x10 is the flat address 0x0710. -/
theorem test_str_stores_byte :
    (tick ((start 0xC230 0x10 0xAB).setActivePage 7)).dataMemory = [(0x0710, 0xAB#8)] := by decide
/-- Vector M4: storing 0 leaves nothing listed. -/
theorem test_str_zero :
    (tick (((start 0xC000 0 0).setActivePage 3).memWrite 0 0x55)).dataMemory = [] := by decide
theorem test_ldi : (tick (start 0xDFFF 0 0)).readReg 15 = 0xFF#8 := by decide
theorem test_ldi_r0 : (tick (start 0xD0FF 0 0)).readReg 0 = 0#8 := by decide

/-- The row 0x80, 0x7F of section 2.3: unsigned, modes 0..5. -/
theorem test_cmp_unsigned :
    [0xE023, 0xE123, 0xE223, 0xE323, 0xE423, 0xE523].map (fun w => (tick (start w 0x80 0x7F)).flag) =
      [false, true, false, true, false, true] := by decide
/-- The row 0x05, 0x05 of section 2.3. -/
theorem test_cmp_equal :
    [0xE023, 0xE123, 0xE223, 0xE323, 0xE423, 0xE523].map (fun w => (tick (start w 5 5)).flag) =
      [true, false, false, true, true, false] := by decide
/-- Program P6's fault. -/
theorem test_cmp_illegal_mode :
    (tick (startAt 0xE923 1 true [])).status = .faulted ⟨.illegalCompareMode, 1, 0xE923#16, 9⟩ := by decide
/-- Vector S2: register 0 selects page 0 whatever slot 0 holds. -/
theorem test_spg_r0 :
    (tick (((start 0xF000 0 0).writeReg 0 0xFF).setActivePage 9)).activePage = 0#8 := by decide
theorem test_spg : (tick (start 0xF2FF 7 0)).activePage = 7#8 := by decide

/-- Vector W1, and one word too many with the options of R38. -/
theorem test_loader_big_endian :
    pairBytes [0x12, 0x34, 0x56, 0x78] = [0x1234#16, 0x5678#16] ∧
    loadWords ⟨.dropTrailing, .truncate, true⟩ 1 [0x12, 0x34, 0x56] = some [0x1234#16] ∧
    loadWords ⟨.fail, .truncate, true⟩ 1 [0x12, 0x34, 0x56] = none ∧
    loadWords ⟨.dropTrailing, .reject, true⟩ 1 [0x12, 0x34, 0x56] = none := by decide

/-- Vector S3: 0xE0 is pure red. -/
theorem test_pixel_red :
    pixelOf 0#8 0xE0#8 = { row := 0, col := 0, red := 7, green := 0, blue := 0 } := by decide

/-! ### Witnesses: for each obligation with hypotheses, a state and operands that meet them, clause by clause -/

theorem safe_of_running {s : State} (h : s.status = .running) : s.Safe := by
  intro rec hr; rw [h] at hr; cases hr

theorem safe_of_terminated {s : State} (h : s.status = .terminated) : s.Safe := by
  intro rec hr; rw [h] at hr; cases hr

theorem witness_DontCareBitsHaveNoEffect :
    decode 0x9000#16 = .instr .ret ∧
    0x9FFF#16 &&& Instr.usedBits .ret = 0x9000#16 &&& Instr.usedBits .ret := by decide

theorem witness_OpcodeTableAgreesWithDecoder :
    (⟨"CMP.NE", 0xFF00#16, 0xE500#16⟩ : TableRow) ∈ opcodeTable ∧ 0xE523#16 &&& 0xFF00#16 = 0xE500#16 := by decide

theorem witness_IllegalWordsAreCompareModesAboveFive :
    (start 0xE600 0 0).fetches = true ∧ decode (start 0xE600 0 0).fetchWord = .illegalCompareMode 6 ∧
    decode (start 0xEFFF 0 0).fetchWord = .illegalCompareMode 15 ∧
    (start 0xE600 0 0).status = .running ∧
    (tick (start 0xE600 0 0)).status = .faulted ⟨.illegalCompareMode, 0, 0xE600#16, 6⟩ := by decide

/-- The invariant on a state one tick after reset of a one-word core whose RET has run. -/
def terminatedState : State :=
  (State.resetWith { Config.full with capacity := 1 } [(0, 0x9000#16)]).advance.setStatus .terminated

theorem witness_StepKeepsInvariant :
    (State.resetWith { Config.full with capacity := 1 } [(0, 0x9000#16)]).Inv ∧
    step (State.resetWith { Config.full with capacity := 1 } [(0, 0x9000#16)]) = .next terminatedState :=
  ⟨⟨by decide, by decide, by decide, by decide, fun _ => by decide, fun h => by simp [State.resetWith] at h,
    fun d h => by simp [State.resetWith, Config.full] at h, fun r h => by simp [State.resetWith] at h⟩, rfl⟩

/-- States of the invariant that fault, at each of the non-default parameters: a full stack and a target 0. -/
theorem witness_faulting_parameters :
    (tick { startAlt 0xA001 0 0 with stack := [1, 1, 1, 1], flag := true }).status =
      .faulted ⟨.callStackOverflow, 0, 0xA001#16, 1⟩ ∧
    (tick { startAlt 0xA000 0 0 with flag := true }).status = .faulted ⟨.pcUnderflow, 0, 0xA000#16, 0⟩ := by decide

theorem witness_ResetStateIsZero :
    State.resetWith Config.full [] = State.reset ∧
    State.resetWith Config.full [(0, 0xD105#16)] = State.resetWith Config.full [(0, 0xD105#16)] := by decide

theorem witness_ResetHasInvariant :
    Config.full.WellFormed ∧ ProgramStore.wf Config.full.capacity [(0, 0xD105#16), (4095, 0x9000#16)] := by decide

theorem witness_BootedCoreHasInvariant :
    Config.full.WellFormed ∧
    boot ⟨.fail, .reject, true⟩ Config.full (some [0xD1, 0x05]) =
      some (State.resetWith Config.full [(0, 0xD105#16)]) := by decide

theorem witness_EqualReadsMeanEqualMemory :
    Memory.wf (State.reset.storeByte 0xFFFF#16 1#8).dataMemory ∧
    Memory.wf ((State.reset.storeByte 0#16 2#8).storeByte 0xFFFF#16 1#8 |>.storeByte 0#16 0#8).dataMemory ∧
    ((State.reset.storeByte 0#16 2#8).storeByte 0xFFFF#16 1#8 |>.storeByte 0#16 0#8).dataMemory =
      (State.reset.storeByte 0xFFFF#16 1#8).dataMemory := by decide

theorem witness_HaltedStateIsFinal :
    terminatedState.status ≠ .running ∧ (tick (start 0x2123 9 0)).status ≠ .running := by decide

theorem witness_StepRunsDecodedInstruction :
    (start 0x0123 1 2).status = .running ∧ (start 0x0123 1 2).pc < (start 0x0123 1 2).config.capacity ∧
    decode ((start 0x0123 1 2).programWord (start 0x0123 1 2).pc) = .instr (.add 1 2 3) ∧
    exec (.add 1 2 3) (start 0x0123 1 2) = .next (((start 0x0123 1 2).setPc 1).writeReg 1 3#8) :=
  ⟨rfl, by decide, by decide, by simp only [Host.Outcome.next.injEq, exec, execAdd]; decide⟩

theorem witness_PlacedWordIsRunNext :
    State.reset.status = .running ∧ State.reset.pc < State.reset.config.capacity ∧
    decodeTableWord 16 0xD105 = some (.ldi 1 5#8) ∧
    exec (.ldi 1 5#8) (State.reset.withFetchWord 16 0xD105) =
      .next (((State.reset.withFetchWord 16 0xD105).setPc 1).writeReg 1 5#8) :=
  ⟨rfl, by decide, by decide, by simp only [Host.Outcome.next.injEq, exec, execLdi]; decide⟩

/-- NextPcTable's hypotheses: RET on an empty and on a non-empty stack, BIR not taken, taken at either setting (target 1 is the
lowest that `TargetMinus1` takes), and an instruction of the first row. -/
theorem witness_NextPcTable :
    (startAt 0x9000 4094 false []).fetches = true ∧ (tick (startAt 0x9000 4094 false [])).Safe ∧
    (startAt 0x9000 8 false [4095]).fetches = true ∧ (tick (startAt 0x9000 8 false [4095])).Safe ∧
    (startAt 0xAFFF 0 false []).fetches = true ∧ (tick (startAt 0xAFFF 0 false [])).Safe ∧
    (startAt 0xAFFF 0 true []).fetches = true ∧ (tick (startAt 0xAFFF 0 true [])).Safe ∧
    (tick { startAlt 0xA001 0 0 with flag := true }).Safe ∧ (tick (start 0x0123 1 2)).Safe :=
  ⟨by decide, safe_of_running (by decide), by decide, safe_of_running (by decide), by decide,
    safe_of_running (by decide), by decide, safe_of_running (by decide), safe_of_running (by decide),
    safe_of_running (by decide)⟩

theorem witness_TerminationExactlyPastStore :
    (startAt 0x9000 4095 false []).fetches = true ∧ (tick (startAt 0x9000 4095 false [])).Safe ∧
    (startAt 0x9000 4094 false []).fetches = true ∧ (tick (startAt 0x9000 4094 false [])).Safe :=
  ⟨by decide, safe_of_terminated (by decide), by decide, safe_of_running (by decide)⟩

theorem witness_FullStoreEndsAfterLastWord :
    (startAt 0x9000 4095 false []).Inv ∧ (startAt 0x9000 4095 false []).config.capacity = 4096 ∧
    (startAt 0x9000 4095 false []).status = .running ∧ (tick (startAt 0x9000 4095 false [])).status = .terminated :=
  ⟨⟨by decide, by decide, by decide, by decide, fun _ => by decide, (fun h => by cases h), (fun d h => by cases h),
    (fun r h => by cases h)⟩, rfl, rfl, by decide⟩

theorem witness_NotTakenBirSpinsForever :
    (startAt 0xA004 2 false []).fetches = true ∧ decode (startAt 0xA004 2 false []).fetchWord = .instr (.bir 4#12) ∧
    (startAt 0xA004 2 false []).flag = false := by decide

/-- Two words of padding at the end of a store of three words. -/
theorem witness_PaddingRunsToTheEnd :
    ((State.resetWith { Config.full with capacity := 3 } [(0, 0xD105#16)]).setPc 1).status = .running ∧
    ((State.resetWith { Config.full with capacity := 3 } [(0, 0xD105#16)]).setPc 1).pc + 2 = 3 ∧
    ∀ a : Nat, 1 ≤ a → a < 3 →
      ((State.resetWith { Config.full with capacity := 3 } [(0, 0xD105#16)]).setPc 1).programWord a = 0#16 := by
  refine ⟨rfl, rfl, fun a h1 h2 => ?_⟩
  interval_cases a <;> decide

theorem witness_FaultingTickWritesNothing :
    (start 0x2123 9 0).status = .running ∧
    (tick (start 0x2123 9 0)).status = .faulted ⟨.divideByZero, 0, 0x2123#16, 3⟩ := by decide

theorem witness_FaultsAreExactlyTheListed :
    (start 0xE600 0 0).fetches = true ∧ (start 0x2123 9 0).fetches = true ∧
    { startAlt 0xA001 0 0 with stack := [1, 1, 1, 1], flag := true }.fetches = true ∧
    { startAlt 0xA000 0 0 with flag := true }.fetches = true := by decide

theorem witness_DefaultFaultsHaveCodesTwoAndThree :
    (start 0x2120 9 0).config.callStackDepth = none ∧ (start 0x2120 9 0).config.birTakenNext = .target ∧
    (tick (start 0x2120 9 0)).status = .faulted ⟨.divideByZero, 0, 0x2120#16, 0⟩ ∧
    (tick (start 0xE600 9 0)).status = .faulted ⟨.illegalCompareMode, 0, 0xE600#16, 6⟩ := by decide

theorem witness_HiddenSlotIsNeverObserved :
    (start 0xF000 0 0).SameButSlot0 ((start 0xF000 0 0).writeReg 0 0xFF#8) ∧
    start 0xF000 0 0 ≠ (start 0xF000 0 0).writeReg 0 0xFF#8 :=
  ⟨⟨by intro q; revert q; decide, rfl, rfl, rfl, rfl, rfl, rfl, rfl, rfl⟩, by decide⟩

theorem witness_RegistersChangeOnlyAsDestination :
    (tick (start 0xDFFF 0 0)).readReg 15 ≠ (start 0xDFFF 0 0).readReg 15 := by decide

theorem witness_FlagChangesOnlyByCompare : (tick (start 0xE523 1 2)).flag ≠ (start 0xE523 1 2).flag := by decide

theorem witness_ActivePageChangesOnlyBySpg :
    (tick (start 0xF200 255 0)).activePage ≠ (start 0xF200 255 0).activePage := by decide

theorem witness_StackChangesOnlyByBirAndRet :
    (tick (startAt 0x9000 8 false [7])).stack ≠ (startAt 0x9000 8 false [7]).stack ∧
    (tick (startAt 0xA004 2 true [])).stack ≠ (startAt 0xA004 2 true []).stack := by decide

theorem witness_MemoryChangesOnlyByStr :
    (tick ((start 0xC230 0xFF 0xAB).setActivePage 255)).dataByte 255 0xFF ≠
      ((start 0xC230 0xFF 0xAB).setActivePage 255).dataByte 255 0xFF := by decide

/-- A store in the first tick, a load of the same byte in the second. -/
theorem witness_LoadReturnsMostRecentStore :
    (ticks 1 ((start 0xC230 0x10 0xAB).placeWord 1 0xB420#16)).fetches = true ∧
    decode (ticks 1 ((start 0xC230 0x10 0xAB).placeWord 1 0xB420#16)).fetchWord = .instr (.ldm 4 2) ∧
    storesOf 1 ((start 0xC230 0x10 0xAB).placeWord 1 0xB420#16) = [(0x0010#16, 0xAB#8)] := by decide

theorem witness_RunHasExactlyOneOutcome :
    (ticks 1 (startAt 0x9000 4095 false [])).status = .terminated ∧
    (ticks 1 (start 0x2123 9 0)).status = .faulted ⟨.divideByZero, 0, 0x2123#16, 3⟩ := by decide

/-- The first and the last word of each opcode's range meet the mask hypothesis of its statement (the ALU, RET, BIR, LDM,
STR, LDI and SPG statements). -/
theorem witness_opcode_masks :
    ∀ op ∈ List.range 16,
      BitVec.ofNat 16 (op * 4096) &&& 0xF000#16 = BitVec.ofNat 16 (op * 4096) ∧
      BitVec.ofNat 16 (op * 4096 + 4095) &&& 0xF000#16 = BitVec.ofNat 16 (op * 4096) := by decide

theorem witness_DivTruncatesOrFaults : (start 0 7 1).readReg 3 ≠ 0#8 ∧ (start 0 7 0).readReg 3 = 0#8 := by decide

/-- A core of four words about to run RET with 7 on top of its stack. -/
def startSmallRet : State :=
  { start 0x9000 0 0 with stack := [3, 7], config := { Config.full with capacity := 4 } }

theorem witness_RetPopsIntoPc :
    (startAt 0 5 false [3, 7]).stack = [3] ++ [7] ∧ (startAt 0 5 false []).stack = [] ∧
    startSmallRet.fetches = true ∧
    decode startSmallRet.fetchWord = .instr .ret ∧
    startSmallRet.config.capacity ≤ (7#12 : Addr12).toNat := by decide

theorem witness_BirBranchesAndPushes :
    (startAt 0 2 true []).flag = true ∧
    (startAt 0 2 true []).config.callStackDepth ≠ some (startAt 0 2 true []).stack.length ∧
    (startAt 0 2 true []).config.birTakenNext = .target ∧
    { startAlt 0 0 0 with flag := true, stack := [1, 1, 1] }.config.callStackDepth ≠ some 3 ∧
    (1#12 : Addr12) ≠ 0#12 ∧ (startAt 0 2 false []).flag = false := by decide

theorem witness_BirOverflowThenUnderflow :
    { startAlt 0 0 0 with flag := true, stack := [1, 1, 1, 1] }.config.callStackDepth = some 4 ∧
    { startAlt 0 0 0 with flag := true, stack := [1, 1, 1] }.config.callStackDepth ≠ some 3 ∧
    { startAlt 0 0 0 with flag := true, stack := [1, 1, 1] }.config.birTakenNext = .targetMinus1 := by decide

theorem witness_RetReentersBranchTarget :
    (startAt 0 2 true []).flag = true ∧ (startAt 0 2 true []).config.callStackDepth ≠ some 0 ∧
    (startAt 0 2 true []).config.birTakenNext = .target ∧
    exec (.bir 4#12) (startAt 0 2 true []) = .next (startAt 0 2 true [] |>.push 4#12 |>.setPc 4) ∧
    (startAt 0 5 false [4]).stack = (startAt 0 2 true [] |>.push 4#12 |>.setPc 4).stack :=
  ⟨rfl, by decide, rfl, rfl, by decide⟩

theorem witness_StoreThenLoad :
    exec (.str 2 3) (start 0 0x10 0xAB) = .next ((start 0 0x10 0xAB).advance.memWrite 0x10#8 0xAB#8) ∧
    (4 : RegIdx) ≠ 0 ∧ (start 0 0x10 0xAB).readReg 3 ≠ (start 0 0x10 0xAB).activePage :=
  ⟨by simp only [Host.Outcome.next.injEq, exec, execStr]; decide, by decide, by decide⟩

theorem witness_CompareSetsFlagByMode :
    (0xE0FF#16 : Word).toNat / 256 = 0xE0 + 0 ∧ (0xE5FF#16 : Word).toNat / 256 = 0xE0 + 5 ∧
    (start 0xE600 0 0).fetches = true ∧ (start 0xE600 0 0).fetchWord.toNat / 256 = 0xE0 + 6 ∧
    (start 0xEFFF 0 0).fetches = true ∧ (start 0xEFFF 0 0).fetchWord.toNat / 256 = 0xE0 + 15 := by decide

theorem witness_WriteEnableMeansStr :
    (ports (start 0xC230 0x10 0xAB)).dmemWe = true ∧ (ports (start 0xB420 0x10 0xAB)).dmemWe = false := by decide

theorem witness_IdiomsDoAsListed :
    State.reset.config.callStackDepth ≠ some State.reset.stack.length ∧
    State.reset.config.birTakenNext = .target := by decide

/-- Both clauses of the loader's statement: a loaded word, and the first word beyond the file. -/
theorem witness_LoaderPairsBytesBigEndian :
    boot ⟨.dropTrailing, .truncate, false⟩ Config.full (some [0x12, 0x34, 0x56]) =
      some (State.resetWith Config.full [(0, 0x1234#16)]) ∧
    ([0x12, 0x34, 0x56] : List Byte)[2 * 0]? = some 0x12 ∧ ([0x12, 0x34, 0x56] : List Byte)[2 * 0 + 1]? = some 0x34 ∧
    ([0x12, 0x34, 0x56] : List Byte).length ≤ 2 * 1 + 1 := by decide

end Sys2Proof.Tests
end

/-! ## The data-memory port (00_scope.md R10, 20_memory.md R45)

First the port side: when a tick's access is a store, read off `dataAccess`. Then the machine side: what a tick leaves in
data memory, read off `exec` and `step`. The obligation puts the two side by side. -/

section

namespace Sys2Proof.Machine

/-! ### When an access is a store -/

/-- STR alone stores, at the active page's offset `x[r1]` the byte `x[r2]` (R96). -/
theorem dataAccess_eq_write_iff (i : Instr) (s : State) (a : DataAddr) (v : Byte) :
    dataAccess i s = some (.write a v) ↔
      ∃ r1 r2 : RegIdx, i = .str r1 r2 ∧ s.activeAddr (s.readReg r1) = a ∧ s.readReg r2 = v := by
  cases i with
  | str q1 q2 =>
    constructor
    · intro h
      simp only [dataAccess, Option.some.injEq, DataAccess.write.injEq] at h
      exact ⟨q1, q2, rfl, h⟩
    · rintro ⟨r1, r2, hi, rfl, rfl⟩
      cases hi
      rfl
  | _ => simp [dataAccess]

/-- The access of a tick that fetches an instruction is that instruction's. -/
theorem tickAccess_of_instr {s : State} {i : Instr} (hf : s.fetches = true) (hd : decode s.fetchWord = .instr i) :
    tickAccess s = dataAccess i s := by
  simp [tickAccess, hf, hd]

/-- A tick's access belongs to the instruction it fetches; a tick that fetches none, or an illegal word, has no access. -/
theorem tickAccess_eq_some_iff (s : State) (x : DataAccess) :
    tickAccess s = some x ↔ s.fetches = true ∧ ∃ i, decode s.fetchWord = .instr i ∧ dataAccess i s = some x := by
  rcases hf : s.fetches with _ | _
  · simp [tickAccess, hf]
  · cases hd : decode s.fetchWord with
    | instr i => simp [tickAccess_of_instr hf hd]
    | illegalCompareMode m => simp [tickAccess, hf, hd]
    | illegalOpcode op => simp [tickAccess, hf, hd]

/-- A tick stores exactly when it fetches a STR, and what it stores is that STR's byte at that STR's address. -/
theorem tickAccess_eq_write_iff (s : State) (a : DataAddr) (v : Byte) :
    tickAccess s = some (.write a v) ↔
      s.fetches = true ∧ ∃ r1 r2 : RegIdx, decode s.fetchWord = .instr (.str r1 r2) ∧
        s.activeAddr (s.readReg r1) = a ∧ s.readReg r2 = v := by
  rw [tickAccess_eq_some_iff]
  simp only [dataAccess_eq_write_iff]
  constructor
  · rintro ⟨hf, _, hd, r1, r2, rfl, ha, hv⟩
    exact ⟨hf, r1, r2, hd, ha, hv⟩
  · rintro ⟨hf, r1, r2, hd, ha, hv⟩
    exact ⟨hf, _, hd, r1, r2, rfl, ha, hv⟩

/-! ### The ports of a store -/

/-- Only a store raises the write enable: a read and no access leave it 0. -/
theorem dmemWe_iff_tickAccess_write (s : State) :
    (ports s).dmemWe = true ↔ ∃ (a : DataAddr) (v : Byte), tickAccess s = some (.write a v) := by
  rcases h : tickAccess s with _ | (a | ⟨a, v⟩)
  · simp [ports, h]
  · simp [ports, h, DataAccess.wdata]
  · simp [ports, h, DataAccess.wdata]

theorem dmemAddr_of_tickAccess_write {s : State} {a : DataAddr} {v : Byte} (h : tickAccess s = some (.write a v)) :
    (ports s).dmemAddr = some a := by
  simp [ports, h, DataAccess.addr]

theorem dmemWdata_of_tickAccess_write {s : State} {a : DataAddr} {v : Byte} (h : tickAccess s = some (.write a v)) :
    (ports s).dmemWdata = some v := by
  simp [ports, h, DataAccess.wdata]

/-- The write enable is 1 exactly when the tick fetches a STR (R10, D12). -/
theorem dmemWe_iff_fetches_str (s : State) :
    (ports s).dmemWe = true ↔
      s.fetches = true ∧ ∃ r1 r2 : RegIdx, decode s.fetchWord = .instr (.str r1 r2) := by
  rw [dmemWe_iff_tickAccess_write]
  simp only [tickAccess_eq_write_iff]
  constructor
  · rintro ⟨_, _, hf, r1, r2, hd, -, -⟩
    exact ⟨hf, r1, r2, hd⟩
  · rintro ⟨hf, r1, r2, hd⟩
    exact ⟨_, _, hf, r1, r2, hd, rfl, rfl⟩

/-! ### What an instruction and a tick leave in data memory -/

/-- Every instruction but STR answers a next state and keeps every byte of data memory (R45). -/
theorem exec_sameMemory_of_ne_str (i : Instr) (s : State) (hi : ∀ r1 r2 : RegIdx, i ≠ .str r1 r2) :
    ∃ t : State, exec i s = .next t ∧ SameMemory s t := by
  cases i with
  | add | sub | and | orr | xor | not | lsh | rsh | ldm | ldi => exact ⟨_, rfl, writeBack_byteAt _ _ s⟩
  | cmpEq | cmpGt | cmpLt | cmpGe | cmpLe | cmpNe => exact ⟨_, rfl, compareInto_byteAt _ _ _ s⟩
  | spg r1 => exact ⟨_, exec_spg r1 s, fun _ => by simp⟩
  | div r1 r2 r3 =>
    rcases exec_div_cases r1 r2 r3 s with ⟨-, e⟩ | ⟨-, e⟩
    · exact ⟨_, e, s.raiseFault_byteAt _ _ _⟩
    · exact ⟨_, e, writeBack_byteAt _ _ s⟩
  | ret =>
    rcases exec_ret_cases s with ⟨-, e⟩ | ⟨a, -, e⟩
    · exact ⟨_, e, s.advance_byteAt⟩
    · exact ⟨_, e, fun _ => by simp⟩
  | bir a =>
    rcases exec_bir_cases a s with ⟨-, e⟩ | ⟨-, -, e⟩ | ⟨-, -, -, e⟩ | ⟨-, -, -, -, e⟩ | ⟨-, -, -, -, e⟩
    · exact ⟨s, e, fun _ => rfl⟩
    · exact ⟨_, e, s.raiseFault_byteAt _ _ _⟩
    · exact ⟨_, e, branchTo_byteAt _ _ s⟩
    · exact ⟨_, e, s.raiseFault_byteAt _ _ _⟩
    · exact ⟨_, e, branchTo_byteAt _ _ s⟩
  | str r1 r2 => exact absurd rfl (hi r1 r2)

/-- A tick that fetches an instruction is its meaning and then the termination check (R68). -/
theorem tick_of_exec {s t : State} {i : Instr} (hf : s.fetches = true) (hd : decode s.fetchWord = .instr i)
    (he : exec i s = .next t) : tick s = t.finishTick :=
  tick_of_step (by simp [step, hf, hd, executeDecoded, he, finishOutcome])

/-- A tick whose access is a store makes that store and no other. -/
theorem tick_memoryExcept_of_write {s : State} {a : DataAddr} {v : Byte} (h : tickAccess s = some (.write a v)) :
    MemoryExcept a v s (tick s) := by
  obtain ⟨hf, r1, r2, hd, rfl, rfl⟩ := (tickAccess_eq_write_iff s a v).mp h
  rw [tick_of_exec hf hd (exec_str r1 r2 s)]
  constructor
  · simp [State.byteAt_memWrite]
  · intro b hb
    simp [State.byteAt_memWrite, hb]

/-- A tick whose access is no store keeps every byte: a fault and the end of the program store none. -/
theorem tick_sameMemory_of_no_write {s : State} (h : ∀ (a : DataAddr) (v : Byte), tickAccess s ≠ some (.write a v)) :
    SameMemory s (tick s) := by
  rcases step_cases s with ⟨hf, i, hd, -⟩ | ⟨-, m, -, e⟩ | ⟨-, op, -, e⟩ | ⟨-, e⟩
  · have hi : ∀ r1 r2 : RegIdx, i ≠ .str r1 r2 := by
      rintro r1 r2 rfl
      exact h _ _ (tickAccess_of_instr hf hd)
    obtain ⟨t, he, hm⟩ := exec_sameMemory_of_ne_str i s hi
    intro b
    rw [tick_of_exec hf hd he, State.finishTick_byteAt, hm b]
  · rw [tick_of_step e]
    exact s.raiseFault_byteAt _ _ _
  · rw [tick_of_step e]
    exact s.raiseFault_byteAt _ _ _
  · rw [tick_of_step e]
    exact s.finishTick_byteAt

/-! ### The obligation -/

/-- Settles O55: the write enable marks the ticks whose access is a store, and those alone touch data memory. -/
theorem writeEnableMeansStr : Obligations.WriteEnableMeansStr := by
  intro s
  refine ⟨dmemWe_iff_fetches_str s, fun hwe => ?_, fun hwe => ?_⟩
  · obtain ⟨a, v, h⟩ := (dmemWe_iff_tickAccess_write s).mp hwe
    exact ⟨a, v, dmemAddr_of_tickAccess_write h, dmemWdata_of_tickAccess_write h, tick_memoryExcept_of_write h⟩
  · refine tick_sameMemory_of_no_write fun a v h => ?_
    exact Bool.false_ne_true (hwe.symm.trans ((dmemWe_iff_tickAccess_write s).mpr ⟨a, v, h⟩))

end Sys2Proof.Machine

end

/-! ## What one tick can do (40_tick.md R68 to R73)

`ExecEffect` lists everything a meaning can do to the state, and `tick_cases` everything a tick can do. The invariant and the
statements of who writes what are read off these lists. -/

section

namespace Sys2Proof.Machine

/-! ### The effects of the instructions -/

/-- The effects of an instruction `i` on the state `s` its tick began with: `t` is the state its meaning answers. -/
inductive ExecEffect (s : State) : Instr → State → Prop where
  /-- A byte to the register that field `r1` names (R21). -/
  | writesRegister {i : Instr} {r : RegIdx} (v : Byte) (hdest : destination i = some r) : ExecEffect s i (writeBack r v s)
  /-- A legal CMP (R99). -/
  | setsFlag (m : CompareMode) (r2 r3 : RegIdx) : ExecEffect s (cmpInstr m r2 r3) (compareInto m r2 r3 s)
  /-- STR (R96). -/
  | storesByte (r1 r2 : RegIdx) : ExecEffect s (.str r1 r2) (s.advance.memWrite (s.readReg r1) (s.readReg r2))
  /-- SPG (R100). -/
  | setsPage (r1 : RegIdx) : ExecEffect s (.spg r1) (s.advance.setActivePage (s.readReg r1))
  /-- RET on an empty stack (R89). -/
  | passesEmptyReturn (hempty : s.stack = []) : ExecEffect s .ret s.advance
  /-- RET with an entry to pop (R89). -/
  | pops (a : Addr12) (htop : s.stack = s.stack.dropLast ++ [a]) : ExecEffect s .ret (s.dropTop.setPc a.toNat)
  /-- BIR with the flag clear (R75). -/
  | spins (a : Addr12) (hflag : s.flag = false) : ExecEffect s (.bir a) s
  /-- A taken BIR, to the address `BIR_TAKEN_NEXT` gives (R90). -/
  | branches (a : Addr12) (n : Nat) (hflag : s.flag = true) (hroom : s.stackFull = false) (hn : n ≤ a.toNat) :
      ExecEffect s (.bir a) (branchTo a n s)
  /-- DIV by a register that reads 0 (R82). -/
  | dividesByZero (r1 r2 r3 : RegIdx) (hzero : s.readReg r3 = 0#8) :
      ExecEffect s (.div r1 r2 r3) (s.raiseFault .divideByZero (encode (.div r1 r2 r3)) r3.val)
  /-- A taken BIR on a full stack (R90). -/
  | overflows (a : Addr12) (hflag : s.flag = true) (hfull : s.stackFull = true) :
      ExecEffect s (.bir a) (s.raiseFault .callStackOverflow (encode (.bir a)) a.toNat)
  /-- A taken BIR 0 under `TargetMinus1` (R91). -/
  | underflows (hflag : s.flag = true) (hnext : s.config.birTakenNext = .targetMinus1) :
      ExecEffect s (.bir 0#12) (s.raiseFault .pcUnderflow (encode (.bir 0#12)) 0)

/-- Every meaning answers a next state, with one of the effects. -/
theorem exec_effect (i : Instr) (s : State) : ∃ t : State, exec i s = .next t ∧ ExecEffect s i t := by
  cases i with
  | add | sub | and | orr | xor | not | lsh | rsh | ldm | ldi => exact ⟨_, rfl, .writesRegister _ rfl⟩
  | cmpEq r2 r3 => exact ⟨_, rfl, .setsFlag .eq r2 r3⟩
  | cmpGt r2 r3 => exact ⟨_, rfl, .setsFlag .gt r2 r3⟩
  | cmpLt r2 r3 => exact ⟨_, rfl, .setsFlag .lt r2 r3⟩
  | cmpGe r2 r3 => exact ⟨_, rfl, .setsFlag .ge r2 r3⟩
  | cmpLe r2 r3 => exact ⟨_, rfl, .setsFlag .le r2 r3⟩
  | cmpNe r2 r3 => exact ⟨_, rfl, .setsFlag .ne r2 r3⟩
  | str r1 r2 => exact ⟨_, rfl, .storesByte r1 r2⟩
  | spg r1 => exact ⟨_, rfl, .setsPage r1⟩
  | div r1 r2 r3 =>
    rcases exec_div_cases r1 r2 r3 s with ⟨hzero, e⟩ | ⟨-, e⟩
    · exact ⟨_, e, .dividesByZero r1 r2 r3 hzero⟩
    · exact ⟨_, e, .writesRegister _ rfl⟩
  | ret =>
    rcases exec_ret_cases s with ⟨hempty, e⟩ | ⟨a, htop, e⟩
    · exact ⟨_, e, .passesEmptyReturn hempty⟩
    · exact ⟨_, e, .pops a htop⟩
  | bir a =>
    rcases exec_bir_cases a s with
      ⟨hflag, e⟩ | ⟨hflag, hfull, e⟩ | ⟨hflag, hroom, -, e⟩ | ⟨hflag, -, hnext, rfl, e⟩ | ⟨hflag, hroom, -, -, e⟩
    · exact ⟨_, e, .spins a hflag⟩
    · exact ⟨_, e, .overflows a hflag hfull⟩
    · exact ⟨_, e, .branches a _ hflag hroom le_rfl⟩
    · exact ⟨_, e, .underflows hflag hnext⟩
    · exact ⟨_, e, .branches a _ hflag hroom (Nat.sub_le _ _)⟩

/-! ### What a word decodes to -/

/-- CMP's decoding gives a CMP or an illegal mode. -/
theorem decodeCmp_cases (f : Fields) :
    (∃ m : CompareMode, decodeCmp f = .instr (cmpInstr m f.r2 f.r3)) ∨ decodeCmp f = .illegalCompareMode f.r1 := by
  unfold decodeCmp
  split
  · exact .inl ⟨_, rfl⟩
  · exact .inr rfl

theorem cmpInstr_of_decodeCmp {f : Fields} {i : Instr} (h : decodeCmp f = .instr i) :
    ∃ m : CompareMode, i = cmpInstr m f.r2 f.r3 := by
  rcases decodeCmp_cases f with ⟨m, e⟩ | e
  · exact ⟨m, Decoded.instr.inj (h.symm.trans e)⟩
  · exact nomatch h.symm.trans e

/-- The table assigns all 16 opcodes (R62, C3). -/
theorem decode_ne_illegalOpcode (w : Word) (op : Fin 16) : decode w ≠ .illegalOpcode op := by
  unfold decode dispatchOpcode
  split
  case h_15 => rcases decodeCmp_cases (decodeFields w) with ⟨m, e⟩ | e <;> simp [e]
  case h_17 =>
    have hlt := (decodeFields w).opcode.isLt
    simp only [imp_false] at *
    omega
  all_goals nofun

/-- Only opcode 2 decodes to a DIV, of its three register fields (R59). -/
theorem decode_eq_div {w : Word} {r1 r2 r3 : RegIdx} (h : decode w = .instr (.div r1 r2 r3)) :
    (decodeFields w).opcode.val = 2 ∧
      (decodeFields w).r1 = r1 ∧ (decodeFields w).r2 = r2 ∧ (decodeFields w).r3 = r3 := by
  unfold decode dispatchOpcode at h
  split at h
  case h_3 hop => exact ⟨hop, by simpa using h⟩
  case h_15 =>
    obtain ⟨m, e⟩ := cmpInstr_of_decodeCmp h
    cases m <;> cases e
  all_goals cases h

/-- Only opcode 10 decodes to a BIR, of its address field (R59). -/
theorem decode_eq_bir {w : Word} {a : Addr12} (h : decode w = .instr (.bir a)) :
    (decodeFields w).opcode.val = 10 ∧ (decodeFields w).addr12 = a := by
  unfold decode dispatchOpcode at h
  split at h
  case h_11 hop => exact ⟨hop, by simpa using h⟩
  case h_15 =>
    obtain ⟨m, e⟩ := cmpInstr_of_decodeCmp h
    cases m <;> cases e
  all_goals cases h

/-- DIV has no don't-care bit: the word it was decoded from is its encoding (log entry 8). -/
theorem encode_div_of_decode {w : Word} {r1 r2 r3 : RegIdx} (h : decode w = .instr (.div r1 r2 r3)) :
    encode (.div r1 r2 r3) = w := by
  obtain ⟨hop, rfl, rfl, rfl⟩ := decode_eq_div h
  apply BitVec.eq_of_toNat_eq
  rw [encode, registerForm_toNat (by decide) (Fin.isLt _) (Fin.isLt _) (Fin.isLt _)]
  simp only [decodeFields_opcode_val, decodeFields_r1_val, decodeFields_r2_val, decodeFields_r3_val] at hop ⊢
  omega

/-- BIR has no don't-care bit either. -/
theorem encode_bir_of_decode {w : Word} {a : Addr12} (h : decode w = .instr (.bir a)) : encode (.bir a) = w := by
  obtain ⟨hop, rfl⟩ := decode_eq_bir h
  apply BitVec.eq_of_toNat_eq
  rw [encode, BitVec.toNat_ofNat]
  simp only [decodeFields_opcode_val, decodeFields_addr12_toNat] at hop ⊢
  omega

/-! ### The cases of a tick -/

/-- Everything a tick can do: an instruction's effect and the termination check, an illegal compare mode's fault, or no
fetch. -/
theorem tick_cases (s : State) :
    (s.fetches = true ∧ ∃ (i : Instr) (t : State),
      decode s.fetchWord = .instr i ∧ ExecEffect s i t ∧ tick s = t.finishTick) ∨
    (s.fetches = true ∧ ∃ m : Fin 16, decode s.fetchWord = .illegalCompareMode m ∧
      tick s = s.raiseFault .illegalCompareMode s.fetchWord m.val) ∨
    (s.fetches = false ∧ tick s = s.finishTick) := by
  rcases step_cases s with ⟨hf, i, hd, -⟩ | ⟨hf, m, hd, e⟩ | ⟨-, op, hd, -⟩ | ⟨hf, e⟩
  · obtain ⟨t, he, heff⟩ := exec_effect i s
    exact .inl ⟨hf, i, t, hd, heff, tick_of_exec hf hd he⟩
  · exact .inr (.inl ⟨hf, m, hd, tick_of_step e⟩)
  · exact absurd hd (decode_ne_illegalOpcode _ op)
  · exact .inr (.inr ⟨hf, tick_of_step e⟩)

/-- A part of the state that neither a fault nor the end of a tick touches changes only by an instruction's effect. -/
theorem exists_effect_of_tick_ne {α : Sort*} (view : State → α) {s : State}
    (hfault : ∀ (kind : FaultKind) (word : Word) (value : Nat), view (s.raiseFault kind word value) = view s)
    (hfinish : ∀ t : State, view t.finishTick = view t) (hne : view (tick s) ≠ view s) :
    s.fetches = true ∧ ∃ (i : Instr) (t : State),
      decode s.fetchWord = .instr i ∧ ExecEffect s i t ∧ view (tick s) = view t ∧ view t ≠ view s := by
  rcases tick_cases s with ⟨hf, i, t, hd, heff, e⟩ | ⟨-, m, -, e⟩ | ⟨-, e⟩
  · have hview : view (tick s) = view t := by rw [e, hfinish]
    exact ⟨hf, i, t, hd, heff, hview, hview ▸ hne⟩
  · exact absurd (by rw [e, hfault]) hne
  · exact absurd (by rw [e, hfinish]) hne

end Sys2Proof.Machine

end

/-! ## Reset and the invariant (10_state.md R34, 40_tick.md R73) -/

section

namespace Sys2Proof.Machine

/-! ### Reset -/

theorem resetWith_regs_getElem (c : Config) (p : ProgramStore) (i : Fin 16) : (State.resetWith c p).regs[i] = 0#8 :=
  Vector.getElem_replicate i.isLt

/-- Settles O7: the reset state of the interface is one of the reset states with parameters and program. -/
theorem resetStateIsZero : Obligations.ResetStateIsZero := by
  refine ⟨fun c p s hs => ?_, fun _ _ => rfl⟩
  obtain ⟨c, p, rfl⟩ : ∃ c p, s = State.resetWith c p := by
    rcases hs with rfl | rfl
    · exact ⟨Config.full, [], rfl⟩
    · exact ⟨c, p, rfl⟩
  exact ⟨resetWith_regs_getElem c p, rfl, rfl, rfl, rfl, fun _ _ => rfl, rfl⟩

/-- A reset state is Running at pc 0, inside any store of legal size, with an empty stack. -/
theorem inv_resetWith {c : Config} {p : ProgramStore} (hc : c.WellFormed) (hp : ProgramStore.wf c.capacity p) :
    (State.resetWith c p).Inv where
  config := hc
  dataMemory := Sparse.wf_nil _
  programStore := hp
  pcRange := Nat.zero_le _
  pcRunning _ := hc.1
  pcTerminated h := nomatch h
  stackDepth _ _ := Nat.zero_le _
  faultRecord _ h := nomatch h

/-- Settles O10: the interface's reset state is the reset state of the default parameters and an empty store. -/
theorem resetHasInvariant : Obligations.ResetHasInvariant :=
  ⟨rfl, inv_resetWith (by decide) ProgramStore.wf_reset, fun _ _ => inv_resetWith⟩

/-! ### The end of a tick and a fault give the invariant -/

/-- What a meaning that does not fault must keep for the termination check to give the invariant back. -/
structure State.KeepsInvPremises (s t : State) : Prop where
  status : t.status = s.status
  config : t.config = s.config
  programStore : t.programStore = s.programStore
  dataMemory : Memory.wf t.dataMemory
  pcRange : t.pc ≤ max s.config.capacity 4095
  stackDepth : ∀ d : Nat, s.config.callStackDepth = some d → t.stack.length ≤ d

/-- The termination check makes a pc past the store Terminated and leaves one inside it Running (R73). -/
theorem State.Inv.finishTick {s t : State} (hs : s.Inv) (hrun : s.status = .running)
    (h : s.KeepsInvPremises t) : t.finishTick.Inv := by
  have hrun' : t.status = .running := h.status.trans hrun
  have hstatus : (t.config.capacity ≤ t.pc ∧ t.finishTick.status = .terminated) ∨
      (t.pc < t.config.capacity ∧ t.finishTick.status = .running) := by
    rcases t.finishTick_cases with ⟨-, hpc, e⟩ | ⟨hpc, e⟩
    · exact .inl ⟨hpc, by rw [e]; rfl⟩
    · exact .inr ⟨by simpa [hrun'] using hpc, by rw [e, hrun']⟩
  constructor
  case config => simpa [h.config] using hs.config
  case dataMemory => simpa using h.dataMemory
  case programStore => simpa [h.config, h.programStore] using hs.programStore
  case pcRange => simpa [h.config] using h.pcRange
  case stackDepth => simpa [h.config] using h.stackDepth
  all_goals rcases hstatus with ⟨hpc, e⟩ | ⟨hpc, e⟩ <;> simp [e, hpc]

/-- A fault of a tick that fetched keeps the invariant when its record is borne out: the pc is the sequential one. -/
theorem State.Inv.raiseFault {s : State} (hs : s.Inv) (hf : s.fetches = true) {kind : FaultKind} {word : Word} {value : Nat}
    (hrec : (s.raiseFault kind word value).BearsOut ⟨kind, s.pc, word, value⟩) : (s.raiseFault kind word value).Inv where
  config := hs.config
  dataMemory := hs.dataMemory
  programStore := hs.programStore
  pcRange := le_max_of_le_left (s.fetches_iff.mp hf).2
  pcRunning h := nomatch h
  pcTerminated h := nomatch h
  stackDepth := hs.stackDepth
  faultRecord rec h := by
    obtain rfl : _ = rec := Status.faulted.inj h
    exact hrec

/-! ### Every effect keeps the invariant -/

/-- The sequential pc of a tick that fetched is in range. -/
theorem succ_pc_le_of_fetches {s : State} (hf : s.fetches = true) : s.pc + 1 ≤ max s.config.capacity 4095 :=
  le_max_of_le_left (s.fetches_iff.mp hf).2

/-- A program address taken from a word or the call stack is in range, whatever the capacity. -/
theorem le_max_of_le_addr12 {c n : Nat} {a : Addr12} (h : n ≤ a.toNat) : n ≤ max c 4095 :=
  le_max_of_le_right (h.trans (Nat.le_of_lt_succ a.isLt))

/-- A push onto a stack that is not full stays within the depth (R30, R90). -/
theorem push_length_le {s : State} (hs : s.Inv) (hroom : s.stackFull = false) {d : Nat}
    (hd : s.config.callStackDepth = some d) (a : Addr12) : (s.stack ++ [a]).length ≤ d := by
  have hle := hs.stackDepth d hd
  have hne : d ≠ s.stack.length := by
    rintro rfl
    exact Bool.false_ne_true (hroom.symm.trans (s.stackFull_iff.mpr hd))
  rw [List.length_append, List.length_singleton]
  omega

/-- From a state of the invariant, every effect of the instruction its tick fetched ends in a state of the invariant. -/
theorem ExecEffect.inv_finishTick {s t : State} {i : Instr} (heff : ExecEffect s i t) (hs : s.Inv) (hf : s.fetches = true)
    (hd : decode s.fetchWord = .instr i) : t.finishTick.Inv := by
  obtain ⟨hrun, hpc⟩ := s.fetches_iff.mp hf
  have hseq := succ_pc_le_of_fetches hf
  cases heff with
  | writesRegister | setsFlag | setsPage | passesEmptyReturn =>
    exact hs.finishTick hrun ⟨rfl, rfl, rfl, hs.dataMemory, hseq, hs.stackDepth⟩
  | storesByte r1 r2 =>
    exact hs.finishTick hrun ⟨rfl, rfl, rfl, Memory.wf_memWrite hs.dataMemory _ _, hseq, hs.stackDepth⟩
  | pops a htop =>
    refine hs.finishTick hrun ⟨rfl, rfl, rfl, hs.dataMemory, le_max_of_le_addr12 le_rfl, fun d hdepth => ?_⟩
    exact s.stack.dropLast_sublist.length_le.trans (hs.stackDepth d hdepth)
  | spins a hflag =>
    exact hs.finishTick hrun ⟨rfl, rfl, rfl, hs.dataMemory, hs.pcRange, hs.stackDepth⟩
  | branches a n hflag hroom hn =>
    exact hs.finishTick hrun ⟨rfl, rfl, rfl, hs.dataMemory, le_max_of_le_addr12 hn,
      fun d hdepth => push_length_le hs hroom hdepth a⟩
  | dividesByZero r1 r2 r3 hzero =>
    rw [State.finishTick_of_halted (by simp), encode_div_of_decode hd]
    exact hs.raiseFault hf ⟨hpc, rfl, r1, r2, r3, hd, hzero, rfl⟩
  | overflows a hflag hfull =>
    rw [State.finishTick_of_halted (by simp), encode_bir_of_decode hd]
    exact hs.raiseFault hf ⟨hpc, rfl, a, hd, hflag, s.stackFull_iff.mp hfull, rfl⟩
  | underflows hflag hnext =>
    rw [State.finishTick_of_halted (by simp), encode_bir_of_decode hd]
    exact hs.raiseFault hf ⟨hpc, rfl, hd, hflag, hnext, rfl⟩

/-- Every tick keeps the invariant. -/
theorem State.Inv.tick {s : State} (hs : s.Inv) : (tick s).Inv := by
  rcases tick_cases s with ⟨hf, i, t, hd, heff, e⟩ | ⟨hf, m, hd, e⟩ | ⟨hf, e⟩
  · rw [e]
    exact heff.inv_finishTick hs hf hd
  · rw [e]
    exact hs.raiseFault hf ⟨(s.fetches_iff.mp hf).2, rfl, m, hd, rfl⟩
  · -- A Running state of the invariant fetches, so this one has halted and stays as it is.
    have hhalted : s.status ≠ .running := fun hrun =>
      Bool.false_ne_true (hf.symm.trans (s.fetches_iff.mpr ⟨hrun, hs.pcRunning hrun⟩))
    rwa [e, State.finishTick_of_halted hhalted]

/-- Settles O9: the state `step` answers is the one `tick` gives. -/
theorem stepKeepsInvariant : Obligations.StepKeepsInvariant := by
  intro s t hs h
  rw [← tick_of_step h]
  exact hs.tick

end Sys2Proof.Machine

end

/-! ## Who writes what (10_state.md R21, R25, R27, R29)

Each part of the state has one or two effects that touch it; all others keep it, which holds by computing the state. -/

section

namespace Sys2Proof.Machine

/-- A register changes only by a write to it, and register 0 by none (R20, R21). -/
theorem ExecEffect.destination_of_readReg_ne {s t : State} {i : Instr} (heff : ExecEffect s i t) {q : RegIdx}
    (hne : t.readReg q ≠ s.readReg q) : q ≠ 0 ∧ destination i = some q := by
  cases heff with
  | writesRegister v hdest =>
    rw [writeBack_readReg] at hne
    split at hne
    · next h => exact ⟨h.2, by rw [hdest, h.1]⟩
    · exact absurd rfl hne
  | _ => exact absurd rfl hne

/-- Settles O26: neither a fault nor the end of a tick writes a register, and one effect does. -/
theorem registersChangeOnlyAsDestination : Obligations.RegistersChangeOnlyAsDestination := by
  intro s q hne
  obtain ⟨hf, i, t, hd, heff, -, hne⟩ :=
    exists_effect_of_tick_ne (·.readReg q) (fun k w v => s.raiseFault_readReg k w v q) (·.finishTick_readReg q) hne
  obtain ⟨hq, hdest⟩ := heff.destination_of_readReg_ne hne
  exact ⟨hq, hf, i, hd, hdest⟩

/-- The flag changes only by a legal CMP (R25). -/
theorem ExecEffect.compare_of_flag_ne {s t : State} {i : Instr} (heff : ExecEffect s i t) (hne : t.flag ≠ s.flag) :
    ∃ (m : CompareMode) (r2 r3 : RegIdx), i = cmpInstr m r2 r3 := by
  cases heff with
  | setsFlag m r2 r3 => exact ⟨m, r2, r3, rfl⟩
  | _ => exact absurd rfl hne

/-- Settles O27: the one effect on the flag is a legal CMP's; an illegal mode only faults (D8). -/
theorem flagChangesOnlyByCompare : Obligations.FlagChangesOnlyByCompare := by
  intro s hne
  obtain ⟨hf, i, t, hd, heff, -, hne⟩ :=
    exists_effect_of_tick_ne State.flag s.raiseFault_flag State.finishTick_flag hne
  obtain ⟨m, r2, r3, rfl⟩ := heff.compare_of_flag_ne hne
  exact ⟨hf, m, r2, r3, hd⟩

/-- ActivePage changes only by SPG (R27, R100). -/
theorem ExecEffect.spg_of_activePage_ne {s t : State} {i : Instr} (heff : ExecEffect s i t)
    (hne : t.activePage ≠ s.activePage) : ∃ r1 : RegIdx, i = .spg r1 ∧ t.activePage = s.readReg r1 := by
  cases heff with
  | setsPage r1 => exact ⟨r1, rfl, rfl⟩
  | _ => exact absurd rfl hne

/-- Settles O28: the one effect on ActivePage is SPG's. -/
theorem activePageChangesOnlyBySpg : Obligations.ActivePageChangesOnlyBySpg := by
  intro s hne
  obtain ⟨hf, i, t, hd, heff, htick, hne⟩ :=
    exists_effect_of_tick_ne State.activePage s.raiseFault_activePage State.finishTick_activePage hne
  obtain ⟨r1, rfl, hpage⟩ := heff.spg_of_activePage_ne hne
  exact ⟨hf, r1, hd, htick.trans hpage⟩

/-- The call stack changes only by a RET that pops and a BIR that pushes (R29, R89, R90). -/
theorem ExecEffect.pop_or_push_of_stack_ne {s t : State} {i : Instr} (heff : ExecEffect s i t) (hne : t.stack ≠ s.stack) :
    (i = .ret ∧ ∃ a : Addr12, s.stack = t.stack ++ [a]) ∨
    (∃ a : Addr12, i = .bir a ∧ s.flag = true ∧ t.stack = s.stack ++ [a]) := by
  cases heff with
  | pops a htop => exact .inl ⟨rfl, a, htop⟩
  | branches a n hflag => exact .inr ⟨a, rfl, hflag, rfl⟩
  | _ => exact absurd rfl hne

/-- Settles O29: the two effects on the call stack are RET's pop and BIR's push. -/
theorem stackChangesOnlyByBirAndRet : Obligations.StackChangesOnlyByBirAndRet := by
  intro s hne
  obtain ⟨hf, i, t, hd, heff, htick, hne⟩ :=
    exists_effect_of_tick_ne State.stack s.raiseFault_stack State.finishTick_stack hne
  rw [htick]
  refine ⟨hf, ?_⟩
  rcases heff.pop_or_push_of_stack_ne hne with ⟨rfl, hpop⟩ | ⟨a, rfl, hpush⟩
  · exact .inl ⟨hd, hpop⟩
  · exact .inr ⟨a, hd, hpush⟩

end Sys2Proof.Machine

end

/-! ## The hidden byte of slot 0 (10_state.md R20)

`State.SameButSlot0` is a bisimulation: each operation on the state keeps it, so each meaning, the step and any number of
ticks do. The meanings read registers through `readReg` alone, which is why both states take the same branch. -/

section

namespace Sys2Proof.Machine

/-- A write to register 0 is not read back and shows in no other part of the state. -/
theorem sameButSlot0_writeReg_zero (s : State) (v : Byte) : s.SameButSlot0 (s.writeReg 0 v) where
  registers q := by rw [State.readReg_writeReg, if_neg fun h => h.2 h.1]
  pc := rfl
  stack := rfl
  flag := rfl
  activePage := rfl
  status := rfl
  dataMemory := rfl
  programStore := rfl
  config := rfl

namespace State.SameButSlot0

variable {s t : State}

/-! ### The operations keep it -/

theorem setPc (h : s.SameButSlot0 t) (n : Nat) : (s.setPc n).SameButSlot0 (t.setPc n) :=
  { h with pc := rfl }

theorem advance (h : s.SameButSlot0 t) : s.advance.SameButSlot0 t.advance :=
  { h with pc := congrArg (· + 1) h.pc }

theorem setActivePage (h : s.SameButSlot0 t) (p : Byte) : (s.setActivePage p).SameButSlot0 (t.setActivePage p) :=
  { h with activePage := rfl }

theorem setStatus (h : s.SameButSlot0 t) (st : Status) : (s.setStatus st).SameButSlot0 (t.setStatus st) :=
  { h with status := rfl }

theorem dropTop (h : s.SameButSlot0 t) : s.dropTop.SameButSlot0 t.dropTop :=
  { h with stack := congrArg List.dropLast h.stack }

theorem branchTo (h : s.SameButSlot0 t) (a : Addr12) (n : Nat) : (branchTo a n s).SameButSlot0 (branchTo a n t) :=
  { h with stack := congrArg (· ++ [a]) h.stack, pc := rfl }

theorem memWrite (h : s.SameButSlot0 t) (off v : Byte) : (s.memWrite off v).SameButSlot0 (t.memWrite off v) :=
  { h with dataMemory := by simp [State.activeAddr, h.activePage, h.dataMemory] }

theorem writeBack (h : s.SameButSlot0 t) (r : RegIdx) (v : Byte) : (writeBack r v s).SameButSlot0 (writeBack r v t) :=
  { h with
    pc := congrArg (· + 1) h.pc
    registers := fun q => by rw [writeBack_readReg, writeBack_readReg, h.registers q] }

theorem aluThree (h : s.SameButSlot0 t) (f : Byte → Byte → Byte) (r1 r2 r3 : RegIdx) :
    (aluThree f r1 r2 r3 s).SameButSlot0 (aluThree f r1 r2 r3 t) := by
  rw [aluThree_eq_writeBack, aluThree_eq_writeBack, h.registers r2, h.registers r3]
  exact h.writeBack _ _

theorem aluTwo (h : s.SameButSlot0 t) (f : Byte → Byte) (r1 r2 : RegIdx) :
    (aluTwo f r1 r2 s).SameButSlot0 (aluTwo f r1 r2 t) := by
  rw [aluTwo_eq_writeBack, aluTwo_eq_writeBack, h.registers r2]
  exact h.writeBack _ _

theorem compareInto (h : s.SameButSlot0 t) (m : CompareMode) (r2 r3 : RegIdx) :
    (compareInto m r2 r3 s).SameButSlot0 (compareInto m r2 r3 t) :=
  { h with
    pc := congrArg (· + 1) h.pc
    flag := congrArg₂ (compareHolds m) (h.registers r2) (h.registers r3) }

theorem raiseFault (h : s.SameButSlot0 t) (kind : FaultKind) (word : Word) (value : Nat) :
    (s.raiseFault kind word value).SameButSlot0 (t.raiseFault kind word value) :=
  { h with
    pc := congrArg (· + 1) h.pc
    status := by simp [h.pc] }

theorem finishTick (h : s.SameButSlot0 t) : s.finishTick.SameButSlot0 t.finishTick := by
  simp only [State.finishTick, h.status, h.config, h.pc]
  split
  · exact h.setStatus .terminated
  · exact h

/-! ### What a meaning reads is the same -/

theorem memRead_eq (h : s.SameButSlot0 t) (off : Byte) : t.memRead off = s.memRead off := by
  simp [State.memRead, State.byteAt, State.activeAddr, h.dataMemory, h.activePage]

theorem top_eq (h : s.SameButSlot0 t) : t.top = s.top :=
  congrArg List.getLast? h.stack

theorem stackFull_eq (h : s.SameButSlot0 t) : t.stackFull = s.stackFull := by
  simp [State.stackFull, h.config, h.stack]

theorem fetches_eq (h : s.SameButSlot0 t) : t.fetches = s.fetches := by
  simp [State.fetches, h.status, h.pc, h.config]

theorem fetchWord_eq (h : s.SameButSlot0 t) : t.fetchWord = s.fetchWord := by
  simp [State.fetchWord, State.programWord, h.programStore, h.pc]

end State.SameButSlot0

/-! ### Meanings, ticks and runs keep it -/

/-- Two outcomes that are next states which differ at most in the hidden byte. -/
def NextSameButSlot0 (o p : Host.Outcome State Fault Refusal) : Prop :=
  ∃ s t : State, o = .next s ∧ p = .next t ∧ s.SameButSlot0 t

namespace State.SameButSlot0

variable {s t : State}

theorem next (h : s.SameButSlot0 t) : NextSameButSlot0 (.next s) (.next t) :=
  ⟨s, t, rfl, rfl, h⟩

/-- No meaning sees the hidden byte. -/
theorem exec (h : s.SameButSlot0 t) (i : Instr) : NextSameButSlot0 (exec i s) (exec i t) := by
  cases i with
  | add | sub | and | orr | xor => exact (h.aluThree _ _ _ _).next
  | not => exact (h.aluTwo _ _ _).next
  | lsh | rsh =>
    simp only [Machine.exec, execLsh, execRsh, h.config]
    exact (h.aluThree _ _ _ _).next
  | ldm r1 r2 => rw [exec_ldm, exec_ldm, h.registers, h.memRead_eq]; exact (h.writeBack _ _).next
  | ldi r1 imm8 => exact (h.writeBack r1 imm8).next
  | cmpEq | cmpGt | cmpLt | cmpGe | cmpLe | cmpNe => exact (h.compareInto _ _ _).next
  | str r1 r2 => rw [exec_str, exec_str, h.registers, h.registers]; exact (h.advance.memWrite _ _).next
  | spg r1 => rw [exec_spg, exec_spg, h.registers]; exact (h.advance.setActivePage _).next
  | div r1 r2 r3 =>
    simp only [Machine.exec, execDiv, h.registers r3]
    split
    · exact (h.raiseFault _ _ _).next
    · exact (h.aluThree _ _ _ _).next
  | ret =>
    simp only [Machine.exec, execRet, h.top_eq]
    split
    · exact (h.dropTop.setPc _).next
    · exact h.advance.next
  | bir a =>
    simp only [Machine.exec, execBir, h.flag, h.stackFull_eq, h.config]
    split
    · split
      · exact (h.raiseFault _ _ _).next
      · split
        · exact (h.branchTo _ _).next
        · split
          · exact (h.raiseFault _ _ _).next
          · exact (h.branchTo _ _).next
    · rw [h.pc]
      exact (h.setPc _).next

/-- No decoded word, legal or not, sees the hidden byte. -/
theorem executeDecoded (h : s.SameButSlot0 t) (d : Decoded) (word : Word) :
    NextSameButSlot0 (executeDecoded d word s) (executeDecoded d word t) := by
  cases d with
  | instr i => exact h.exec i
  | illegalCompareMode mode => exact (h.raiseFault _ _ _).next
  | illegalOpcode opcode => exact (h.raiseFault _ _ _).next

/-- No step sees the hidden byte: both states fetch the same word or neither fetches. -/
theorem step (h : s.SameButSlot0 t) : NextSameButSlot0 (step s) (step t) := by
  simp only [Machine.step, h.fetches_eq, h.fetchWord_eq]
  split
  · obtain ⟨s', t', hs, ht, h'⟩ := h.executeDecoded (decode s.fetchWord) s.fetchWord
    rw [hs, ht]
    exact h'.finishTick.next
  · exact h.finishTick.next

theorem tick (h : s.SameButSlot0 t) : (tick s).SameButSlot0 (tick t) := by
  obtain ⟨s', t', hs, ht, h'⟩ := h.step
  rwa [tick_of_step hs, tick_of_step ht]

theorem ticks (h : s.SameButSlot0 t) (k : Nat) : (ticks k s).SameButSlot0 (ticks k t) := by
  induction k generalizing s t with
  | zero => exact h
  | succ k ih => exact ih h.tick

/-- What an observer sees at the end of a run leaves out the hidden byte (R122). -/
theorem observe_eq (h : s.SameButSlot0 t) : t.observe = s.observe := by
  have hshown (rec : Option FaultRecord) : t.shown rec = s.shown rec := by
    simp [State.shown, h.registers _, h.flag, h.activePage, h.stack, h.dataMemory]
  simp only [State.observe, h.status, hshown]

end State.SameButSlot0

/-- Settles O25: differing at most in slot 0 is a bisimulation that the observation respects. -/
theorem hiddenSlotIsNeverObserved : Obligations.HiddenSlotIsNeverObserved :=
  ⟨fun s v => ⟨rfl, sameButSlot0_writeReg_zero s v⟩, fun _ _ k h => ⟨h.ticks k, (h.ticks k).observe_eq⟩⟩

end Sys2Proof.Machine

end

/-! ## Data memory (20_memory.md R39 to R42, R46, R50)

The address is a pair of page and offset, and the canonical form is fixed by what it reads as. A byte changes only in a tick
whose access is a store to it, so after a run it holds what the last of the run's stores to it stored. -/

section

namespace Sys2Proof.Machine

/-! ### The flat address -/

/-- A flat address determines its page and its offset. -/
theorem dataAddr_inj {p o p' o' : Byte} (h : dataAddr p o = dataAddr p' o') : p = p' ∧ o = o' := by
  have hnat := congrArg BitVec.toNat h
  rw [dataAddr_toNat, dataAddr_toNat] at hnat
  have ho := o.isLt
  have ho' := o'.isLt
  exact ⟨BitVec.eq_of_toNat_eq (by omega), BitVec.eq_of_toNat_eq (by omega)⟩

/-- The high byte of an address is its page, the low byte its offset. -/
theorem dataAddr_highByte_lowByte (a : DataAddr) :
    dataAddr (BitVec.ofNat 8 (a.toNat / 256)) (BitVec.ofNat 8 a.toNat) = a := by
  apply BitVec.eq_of_toNat_eq
  have ha := a.isLt
  rw [dataAddr_toNat, BitVec.toNat_ofNat, BitVec.toNat_ofNat]
  omega

/-- Settles O48: the flat address is a two-digit number in base 256. -/
theorem dataAddressIsOneToOne : Obligations.DataAddressIsOneToOne :=
  ⟨dataAddr_toNat, fun _ _ _ _ => dataAddr_inj, fun a => ⟨_, _, dataAddr_highByte_lowByte a⟩⟩

/-! ### The canonical form -/

/-- A listed entry is what its address reads as, since no address is listed twice. -/
theorem Sparse.read_eq_of_mem {w : Nat} {m : List (Nat × BitVec w)} (h : m.Pairwise (fun c d => c.1 < d.1))
    {c : Nat × BitVec w} (hc : c ∈ m) : Sparse.read m c.1 = c.2 := by
  induction m with
  | nil => cases hc
  | cons d rest ih =>
    obtain ⟨hlt, hrest⟩ := List.pairwise_cons.mp h
    rcases List.mem_cons.mp hc with rfl | hc
    · exact if_pos rfl
    · rw [Sparse.read, if_neg (hlt c hc).ne]
      exact ih hrest hc

/-- An address that does not read 0 is listed. -/
theorem Sparse.mem_of_read_ne_zero {w : Nat} {m : List (Nat × BitVec w)} {a : Nat} (h : Sparse.read m a ≠ 0#w) :
    (a, Sparse.read m a) ∈ m := by
  induction m with
  | nil => exact absurd rfl h
  | cons d rest ih =>
    obtain ⟨b, u⟩ := d
    rw [Sparse.read] at h ⊢
    split at h
    · next hb => simp [hb]
    · next hb =>
      rw [if_neg hb]
      exact List.mem_cons_of_mem _ (ih h)

/-- The entries of a store in canonical form, from its reads alone. -/
theorem Sparse.mem_iff_read {w size : Nat} {m : List (Nat × BitVec w)} (h : Sparse.wf size m) (c : Nat × BitVec w) :
    c ∈ m ↔ c.2 ≠ 0#w ∧ Sparse.read m c.1 = c.2 := by
  constructor
  · intro hc
    exact ⟨(h.2 c hc).2, Sparse.read_eq_of_mem h.1 hc⟩
  · rintro ⟨hne, hread⟩
    have hmem := Sparse.mem_of_read_ne_zero (hread ▸ hne)
    rwa [hread] at hmem

/-- Two stores in canonical form that read alike inside their size are one list: both are sorted and have the same entries. -/
theorem Sparse.eq_of_read_eq {w size : Nat} {m n : List (Nat × BitVec w)} (hm : Sparse.wf size m) (hn : Sparse.wf size n)
    (h : ∀ a < size, Sparse.read m a = Sparse.read n a) : m = n := by
  have hread (a : Nat) : Sparse.read m a = Sparse.read n a := by
    rcases Nat.lt_or_ge a size with ha | ha
    · exact h a ha
    · rw [Sparse.read_eq_zero_of_size_le hm ha, Sparse.read_eq_zero_of_size_le hn ha]
  have hmem (c : Nat × BitVec w) : c ∈ m ↔ c ∈ n := by
    rw [Sparse.mem_iff_read hm, Sparse.mem_iff_read hn, hread]
  have hirrefl : Std.Irrefl fun c d : Nat × BitVec w => c.1 < d.1 := ⟨fun c => Nat.lt_irrefl c.1⟩
  have hantisymm : Std.Antisymm fun c d : Nat × BitVec w => c.1 < d.1 := ⟨fun _ _ h h' => absurd h (Nat.lt_asymm h')⟩
  exact hm.1.eq_of_mem_iff hn.1 hmem

/-- Settles O12: data memory is a sparse store of 65,536 bytes. -/
theorem equalReadsMeanEqualMemory : Obligations.EqualReadsMeanEqualMemory := by
  intro s t hs ht h
  exact Sparse.eq_of_read_eq ht hs fun a ha => by
    simpa [State.byteAt, Nat.mod_eq_of_lt ha] using h (BitVec.ofNat 16 a)

/-! ### One tick -/

/-- A byte after a tick whose access is a store. -/
theorem tick_byteAt_of_write {s : State} {a : DataAddr} {v : Byte} (h : tickAccess s = some (.write a v)) (b : DataAddr) :
    (tick s).byteAt b = if a = b then v else s.byteAt b := by
  obtain ⟨hval, hframe⟩ := tick_memoryExcept_of_write h
  split
  · next hab => rw [← hab, hval]
  · next hab => exact hframe b (Ne.symm hab)

/-- A byte changes only in a tick that stores to it. -/
theorem tickAccess_of_byteAt_ne {s : State} {b : DataAddr} (hne : (tick s).byteAt b ≠ s.byteAt b) :
    tickAccess s = some (.write b ((tick s).byteAt b)) := by
  by_contra hno
  refine hne ?_
  by_cases hw : ∃ (a : DataAddr) (v : Byte), tickAccess s = some (.write a v)
  · obtain ⟨a, v, h⟩ := hw
    have hab : a ≠ b := by
      rintro rfl
      exact hno (by rw [h, tick_byteAt_of_write h, if_pos rfl])
    rw [tick_byteAt_of_write h, if_neg hab]
  · exact tick_sameMemory_of_no_write (fun a v h => hw ⟨a, v, h⟩) b

/-- Settles O30: the store that changes a byte is a STR's, and its address has the active page and the offset `x[r1]`. -/
theorem memoryChangesOnlyByStr : Obligations.MemoryChangesOnlyByStr := by
  intro s page off hne
  obtain ⟨hf, r1, r2, hd, haddr, hval⟩ := (tickAccess_eq_write_iff s _ _).mp (tickAccess_of_byteAt_ne hne)
  obtain ⟨hpage, hoff⟩ := dataAddr_inj haddr
  exact ⟨hpage.symm, hf, r1, r2, hd, hoff.symm, hval.symm⟩

/-- The register a tick that fetches a LDM loads holds the byte the load addressed before the tick (R95). -/
theorem tick_readReg_of_ldm {s : State} {r1 r2 : RegIdx} (hf : s.fetches = true)
    (hd : decode s.fetchWord = .instr (.ldm r1 r2)) (hr : r1 ≠ 0) :
    (tick s).readReg r1 = s.byteAt (dataAddr s.activePage (s.readReg r2)) := by
  rw [tick_of_exec hf hd (exec_ldm r1 r2 s), State.finishTick_readReg, writeBack_readReg, if_pos ⟨rfl, hr⟩]
  rfl

/-! ### A run -/

/-- Taking the first tick off a run moves its store, where it makes one, into the starting value. -/
theorem lastStored_storesOf_succ (s : State) (k : Nat) (a : DataAddr) :
    lastStored a (s.byteAt a) (storesOf (k + 1) s) = lastStored a ((tick s).byteAt a) (storesOf k (tick s)) := by
  rcases h : tickAccess s with _ | (b | ⟨b, v⟩)
  · simp [storesOf, h, tick_sameMemory_of_no_write (s := s) (by simp [h]) a]
  · simp [storesOf, h, tick_sameMemory_of_no_write (s := s) (by simp [h]) a]
  · simp [storesOf, h, lastStored, tick_byteAt_of_write h]

/-- After a run a byte holds what the most recent store to it stored (R46, R50). -/
theorem ticks_byteAt (k : Nat) (s : State) (a : DataAddr) :
    (ticks k s).byteAt a = lastStored a (s.byteAt a) (storesOf k s) := by
  induction k generalizing s with
  | zero => rfl
  | succ k ih => rw [ticks_succ, ih, lastStored_storesOf_succ]

/-- Settles O34: a load's byte is one byte of the state the run led to. -/
theorem loadReturnsMostRecentStore : Obligations.LoadReturnsMostRecentStore := by
  refine fun s k => ⟨ticks_byteAt k s, fun r1 r2 hf hd hr => ?_⟩
  rw [ticks_succ_last, tick_readReg_of_ldm hf hd hr, ticks_byteAt]

end Sys2Proof.Machine

end

/-! ## The program store (20_memory.md R35 to R38, R52)

No tick writes it; the words past a program are ADD r0, r0, r0, which a core passes through; and the loader fills it. -/

section

namespace Sys2Proof.Machine

/-! ### No tick writes it -/

/-- No effect of an instruction touches the program store. -/
theorem ExecEffect.programStore_eq {s t : State} {i : Instr} (heff : ExecEffect s i t) :
    t.programStore = s.programStore := by
  cases heff <;> rfl

theorem tick_programStore (s : State) : (tick s).programStore = s.programStore := by
  by_contra hne
  obtain ⟨-, _, _, -, heff, -, hne⟩ :=
    exists_effect_of_tick_ne State.programStore s.raiseFault_programStore State.finishTick_programStore hne
  exact hne heff.programStore_eq

/-- Settles O31: one tick keeps the program store, so a run does. -/
theorem programStoreNeverChanges : Obligations.ProgramStoreNeverChanges := by
  intro s k
  induction k with
  | zero => rfl
  | succ k ih => rw [ticks_succ_last, tick_programStore, ih]

/-! ### Padding

A padding word advances pc and writes register 0, so a state on the padding and the state with only its pc moved differ in
slot 0 alone. -/

theorem State.finishTick_of_lt {s : State} (h : s.pc < s.config.capacity) : s.finishTick = s := by
  rcases s.finishTick_cases with ⟨-, hle, -⟩ | ⟨-, e⟩
  · omega
  · exact e

theorem State.finishTick_of_le {s : State} (hrun : s.status = .running) (h : s.config.capacity ≤ s.pc) :
    s.finishTick = s.setStatus .terminated := by
  rcases s.finishTick_cases with ⟨-, -, e⟩ | ⟨hno, -⟩
  · exact e
  · exact absurd ⟨hrun, h⟩ hno

theorem State.SameButSlot0.trans {s t u : State} (h : s.SameButSlot0 t) (h' : t.SameButSlot0 u) : s.SameButSlot0 u where
  registers q := (h'.registers q).trans (h.registers q)
  pc := h'.pc.trans h.pc
  stack := h'.stack.trans h.stack
  flag := h'.flag.trans h.flag
  activePage := h'.activePage.trans h.activePage
  status := h'.status.trans h.status
  dataMemory := h'.dataMemory.trans h.dataMemory
  programStore := h'.programStore.trans h.programStore
  config := h'.config.trans h.config

/-- An unloaded word is ADD r0, r0, r0, the NOP of R66. -/
theorem decode_zero : decode 0#16 = .instr (.add 0 0 0) := by decide

/-- A tick on a padding word moves pc on by one, and nothing else that can be observed. -/
theorem sameButSlot0_tick_of_padding {s : State} (hf : s.fetches = true) (hw : s.fetchWord = 0#16) :
    s.advance.finishTick.SameButSlot0 (tick s) := by
  rw [tick_of_exec hf (hw ▸ decode_zero) (exec_add 0 0 0 s)]
  exact (sameButSlot0_writeReg_zero s.advance _).finishTick

/-- `k` ticks on padding move pc on by `k`, and the termination check sees the end of the store. -/
theorem sameButSlot0_ticks_of_padding {s : State} (hrun : s.status = .running) (hin : s.pc < s.config.capacity)
    (hpad : ∀ a : Nat, s.pc ≤ a → a < s.config.capacity → s.programWord a = 0#16) {k : Nat}
    (hk : s.pc + k ≤ s.config.capacity) : (s.setPc (s.pc + k)).finishTick.SameButSlot0 (ticks k s) := by
  induction k with
  | zero =>
    rw [State.finishTick_of_lt (s := s.setPc (s.pc + 0)) hin]
    exact ⟨fun _ => rfl, rfl, rfl, rfl, rfl, rfl, rfl, rfl, rfl⟩
  | succ k ih =>
    have hlt : s.pc + k < s.config.capacity := hk
    have hsame := ih hlt.le
    rw [State.finishTick_of_lt (s := s.setPc (s.pc + k)) hlt] at hsame
    rw [ticks_succ_last]
    have hfetch : (s.setPc (s.pc + k)).fetches = true := (State.fetches_iff _).mpr ⟨hrun, hlt⟩
    have hword : (s.setPc (s.pc + k)).fetchWord = 0#16 := hpad _ (Nat.le_add_right _ _) hlt
    exact (sameButSlot0_tick_of_padding hfetch hword).trans hsame.tick

/-- Settles O21: inside the store the termination check does nothing, at its end it terminates the core. -/
theorem paddingRunsToTheEnd : Obligations.PaddingRunsToTheEnd := by
  intro s n hrun hn hend hpad
  have hsame (k : Nat) (hk : s.pc + k ≤ s.config.capacity) :=
    sameButSlot0_ticks_of_padding hrun (by omega) hpad hk
  constructor
  · intro k hk
    have hlt : s.pc + k < s.config.capacity := by omega
    have h := hsame k hlt.le
    rw [State.finishTick_of_lt (s := s.setPc (s.pc + k)) hlt] at h
    exact ⟨h.status.trans hrun, h.pc⟩
  · have h := hsame n hend.le
    rw [State.finishTick_of_le (s := s.setPc (s.pc + n)) hrun hend.ge] at h
    exact ⟨h.status, h.pc.trans hend, h.registers, h.flag, h.stack, h.activePage, fun a => by
      simp [State.byteAt, h.dataMemory]⟩

/-! ### The loader -/

/-- The loader fails or rejects exactly where a setting tells it to (R38). -/
theorem loadWords_eq_none_iff (h : HostParams) (capacity : Nat) (bytes : List Byte) :
    loadWords h capacity bytes = none ↔
      (h.loaderOdd = .fail ∧ bytes.length % 2 = 1) ∨ (h.loaderOverlong = .reject ∧ 2 * capacity < bytes.length) := by
  unfold loadWords
  split
  · next hodd => simp [hodd]
  · next hodd =>
    split
    · next hlong => simp [hlong]
    · next hlong => simp [hodd, hlong]

/-- The words the loader gives are the file's pairs, as many as the store holds. -/
theorem eq_take_of_loadWords {h : HostParams} {capacity : Nat} {bytes : List Byte} {words : List Word}
    (hload : loadWords h capacity bytes = some words) : words = (pairBytes bytes).take capacity := by
  unfold loadWords at hload
  split at hload
  · cases hload
  · split at hload
    · cases hload
    · exact (Option.some.inj hload).symm

/-- A readable file starts no core exactly where the loader gives no words (R105). -/
theorem boot_some_eq_none_iff (h : HostParams) (c : Config) (bytes : List Byte) :
    boot h c (some bytes) = none ↔ loadWords h c.capacity bytes = none := by
  rcases hload : loadWords h c.capacity bytes with _ | words
  · simp [boot, hload]
  · simp [boot, hload]

/-- Settles O58: only the loader's checks and a missing file keep the core from starting. -/
theorem loaderFailsExactlyWhenToldTo : Obligations.LoaderFailsExactlyWhenToldTo := by
  intro h c file
  cases file with
  | none => exact iff_of_true rfl trivial
  | some bytes => exact (boot_some_eq_none_iff h c bytes).trans (loadWords_eq_none_iff h c.capacity bytes)

/-- A start that succeeds is a reset with the words the loader built. -/
theorem exists_words_of_boot {h : HostParams} {c : Config} {bytes : List Byte} {s : State}
    (hboot : boot h c (some bytes) = some s) :
    ∃ words : List Word, loadWords h c.capacity bytes = some words ∧ s = State.resetWith c (storeOfWords words) := by
  rcases hload : loadWords h c.capacity bytes with _ | words
  · simp [boot, hload] at hboot
  · exact ⟨words, rfl, by simpa [boot, hload] using hboot.symm⟩

/-- The address `base + j` of a filled store reads word `j`, and addresses the words do not reach read as before. -/
theorem read_fillStore (base : Nat) (words : List Word) (p : ProgramStore) (a : Nat) :
    Sparse.read (fillStore base words p) a =
      if base ≤ a then words[a - base]?.getD (Sparse.read p a) else Sparse.read p a := by
  induction words generalizing base p with
  | nil => simp [fillStore]
  | cons w rest ih =>
    rw [fillStore, ih, Sparse.read_write]
    rcases Nat.lt_trichotomy a base with ha | rfl | ha
    · rw [if_neg (by omega), if_neg (by omega), if_neg (by omega)]
    · simp
    · obtain ⟨j, rfl⟩ := Nat.exists_eq_add_of_lt ha
      have hidx : base + j + 1 - base = base + j + 1 - (base + 1) + 1 := by omega
      rw [if_pos (by omega), if_neg (by omega), if_pos (by omega), hidx, List.getElem?_cons_succ]

theorem read_storeOfWords (words : List Word) (a : Nat) : Sparse.read (storeOfWords words) a = words[a]?.getD 0#16 := by
  rw [storeOfWords, read_fillStore, if_pos (Nat.zero_le a)]
  rfl

/-- Word `k` of a file is its bytes `2k` and `2k + 1`, the first one the high byte (R37). -/
theorem pairBytes_getElem? (bytes : List Byte) (k : Nat) :
    (pairBytes bytes)[k]? = bytes[2 * k]?.bind fun hi => bytes[2 * k + 1]?.map fun lo => hi ++ lo := by
  induction bytes using pairBytes.induct generalizing k with
  | case1 hi lo rest ih =>
    cases k with
    | zero => rfl
    | succ k => simpa [pairBytes, Nat.mul_succ] using ih k
  | case2 hi => simp [pairBytes]
  | case3 => simp [pairBytes]

/-- The words of a core that has started. -/
theorem programWord_of_boot {h : HostParams} {c : Config} {bytes : List Byte} {s : State}
    (hboot : boot h c (some bytes) = some s) (k : Nat) :
    s.programWord k = ((pairBytes bytes).take c.capacity)[k]?.getD 0#16 := by
  obtain ⟨words, hload, rfl⟩ := exists_words_of_boot hboot
  rw [← eq_take_of_loadWords hload]
  exact read_storeOfWords words k

/-- Settles O57: word `k` is the pair of bytes `2k` and `2k + 1` where both stand in the file and the word fits. -/
theorem loaderPairsBytesBigEndian : Obligations.LoaderPairsBytesBigEndian := by
  intro h c bytes s hboot k
  rw [programWord_of_boot hboot, List.getElem?_take]
  constructor
  · intro hi lo hk hhi hlo
    rw [if_pos hk, pairBytes_getElem?, hhi, hlo]
    exact dataAddr_toNat hi lo
  · rintro (hk | hshort)
    · rw [if_neg hk.not_gt]
      rfl
    · have hlo : bytes[2 * k + 1]? = none := List.getElem?_eq_none hshort
      rw [pairBytes_getElem?, hlo]
      simp

end Sys2Proof.Machine

end

/-! ## Encoding (30_encoding.md)

Decoding and encoding meet in the fields of a word. `Instr.ReadFrom` says which fields an instruction uses and what they hold
(R59); the decoder answers `i` exactly when the word's fields read as `i`, and so does the test that the word's used bits are
those of `i`'s encoding. -/

section

namespace Sys2Proof

/-! ### The fields an instruction is read from -/

/-- The mode field that names a compare mode (R99). -/
def CompareMode.code : CompareMode → Fin 16
  | .eq => 0
  | .gt => 1
  | .lt => 2
  | .ge => 3
  | .le => 4
  | .ne => 5

/-- The fields hold the instruction's opcode and its operands; the fields it does not use may hold anything (R59, R60). -/
def Instr.ReadFrom (f : Fields) : Instr → Prop
  | .add r1 r2 r3 => f.opcode = 0x0 ∧ f.r1 = r1 ∧ f.r2 = r2 ∧ f.r3 = r3
  | .sub r1 r2 r3 => f.opcode = 0x1 ∧ f.r1 = r1 ∧ f.r2 = r2 ∧ f.r3 = r3
  | .div r1 r2 r3 => f.opcode = 0x2 ∧ f.r1 = r1 ∧ f.r2 = r2 ∧ f.r3 = r3
  | .and r1 r2 r3 => f.opcode = 0x3 ∧ f.r1 = r1 ∧ f.r2 = r2 ∧ f.r3 = r3
  | .orr r1 r2 r3 => f.opcode = 0x4 ∧ f.r1 = r1 ∧ f.r2 = r2 ∧ f.r3 = r3
  | .xor r1 r2 r3 => f.opcode = 0x5 ∧ f.r1 = r1 ∧ f.r2 = r2 ∧ f.r3 = r3
  | .not r1 r2 => f.opcode = 0x6 ∧ f.r1 = r1 ∧ f.r2 = r2
  | .lsh r1 r2 r3 => f.opcode = 0x7 ∧ f.r1 = r1 ∧ f.r2 = r2 ∧ f.r3 = r3
  | .rsh r1 r2 r3 => f.opcode = 0x8 ∧ f.r1 = r1 ∧ f.r2 = r2 ∧ f.r3 = r3
  | .ret => f.opcode = 0x9
  | .bir addr12 => f.opcode = 0xA ∧ f.addr12 = addr12
  | .ldm r1 r2 => f.opcode = 0xB ∧ f.r1 = r1 ∧ f.r2 = r2
  | .str r1 r2 => f.opcode = 0xC ∧ f.r1 = r1 ∧ f.r2 = r2
  | .ldi r1 imm8 => f.opcode = 0xD ∧ f.r1 = r1 ∧ f.imm8 = imm8
  | .cmpEq r2 r3 => f.opcode = 0xE ∧ f.r1 = CompareMode.eq.code ∧ f.r2 = r2 ∧ f.r3 = r3
  | .cmpGt r2 r3 => f.opcode = 0xE ∧ f.r1 = CompareMode.gt.code ∧ f.r2 = r2 ∧ f.r3 = r3
  | .cmpLt r2 r3 => f.opcode = 0xE ∧ f.r1 = CompareMode.lt.code ∧ f.r2 = r2 ∧ f.r3 = r3
  | .cmpGe r2 r3 => f.opcode = 0xE ∧ f.r1 = CompareMode.ge.code ∧ f.r2 = r2 ∧ f.r3 = r3
  | .cmpLe r2 r3 => f.opcode = 0xE ∧ f.r1 = CompareMode.le.code ∧ f.r2 = r2 ∧ f.r3 = r3
  | .cmpNe r2 r3 => f.opcode = 0xE ∧ f.r1 = CompareMode.ne.code ∧ f.r2 = r2 ∧ f.r3 = r3
  | .spg r1 => f.opcode = 0xF ∧ f.r1 = r1

/-! ### What the decoder answers -/

theorem compareModeOf_eq_some_iff (r : Fin 16) (m : CompareMode) : compareModeOf r = some m ↔ r = m.code := by
  cases m <;> revert r <;> decide

/-- Modes 6..15 name nothing (R62). -/
theorem compareModeOf_eq_none_iff (r : Fin 16) : compareModeOf r = none ↔ 6 ≤ r.val := by
  revert r
  decide

/-- CMP decodes by its mode field alone. -/
theorem decodeCmp_eq_instr_iff (f : Fields) (i : Instr) :
    decodeCmp f = .instr i ↔ ∃ m : CompareMode, f.r1 = m.code ∧ i = cmpInstr m f.r2 f.r3 := by
  simp only [← compareModeOf_eq_some_iff, decodeCmp]
  cases compareModeOf f.r1 <;> simp [eq_comm]

theorem decodeCmp_eq_illegalCompareMode_iff (f : Fields) (m : Fin 16) :
    decodeCmp f = .illegalCompareMode m ↔ f.r1 = m ∧ 6 ≤ m.val := by
  rw [decodeCmp]
  rcases hmode : compareModeOf f.r1 with _ | mode
  · have hle := (compareModeOf_eq_none_iff f.r1).mp hmode
    simp only [Decoded.illegalCompareMode.injEq, iff_self_and]
    rintro rfl
    exact hle
  · simp only [reduceCtorEq, false_iff]
    rintro ⟨rfl, hle⟩
    exact nomatch hmode.symm.trans ((compareModeOf_eq_none_iff f.r1).mpr hle)

/-- The opcode map answers exactly the instruction the fields read as (R59). -/
theorem dispatchOpcode_eq_instr_iff (f : Fields) (i : Instr) : dispatchOpcode f = .instr i ↔ i.ReadFrom f := by
  constructor
  · intro h
    unfold dispatchOpcode at h
    split at h
    case h_15 hop =>
      obtain ⟨m, hmode, rfl⟩ := (decodeCmp_eq_instr_iff f i).mp h
      cases m <;> exact ⟨Fin.ext hop, hmode, rfl, rfl⟩
    case h_17 => cases h
    all_goals
      next hop =>
        cases h
        simp [Instr.ReadFrom, Fin.ext_iff, hop]
  · intro h
    obtain ⟨op, q1, q2, q3, a, b⟩ := f
    cases i with
    | add | sub | div | and | orr | xor | lsh | rsh | cmpEq | cmpGt | cmpLt | cmpGe | cmpLe | cmpNe =>
      obtain ⟨rfl, rfl, rfl, rfl⟩ := h
      rfl
    | not | ldm | str | ldi =>
      obtain ⟨rfl, rfl, rfl⟩ := h
      rfl
    | bir | spg =>
      obtain ⟨rfl, rfl⟩ := h
      rfl
    | ret =>
      obtain rfl := h
      rfl

/-- The opcode map answers an illegal mode for CMP alone (R62, R69). -/
theorem dispatchOpcode_eq_illegalCompareMode_iff (f : Fields) (m : Fin 16) :
    dispatchOpcode f = .illegalCompareMode m ↔ f.opcode = 0xE ∧ f.r1 = m ∧ 6 ≤ m.val := by
  rw [← decodeCmp_eq_illegalCompareMode_iff]
  constructor
  · intro h
    unfold dispatchOpcode at h
    split at h
    case h_15 hop => exact ⟨Fin.ext hop, h⟩
    all_goals cases h
  · rintro ⟨hop, h⟩
    simpa [dispatchOpcode, hop] using h

/-! ### The used bits of a word

One lemma per shape of an instruction's word: a mask of the word and the fields it holds. -/

theorem fields_iff_and_fullMask (w : Word) (op r1 r2 r3 : Fin 16) :
    ((decodeFields w).opcode = op ∧ (decodeFields w).r1 = r1 ∧ (decodeFields w).r2 = r2 ∧ (decodeFields w).r3 = r3) ↔
      w &&& 0xFFFF#16 = registerForm op r1 r2 r3 := by
  rw [and_fullMask, ← BitVec.toNat_inj, registerForm_toNat op.isLt r1.isLt r2.isLt r3.isLt]
  simp only [Fin.ext_iff, decodeFields_opcode_val, decodeFields_r1_val, decodeFields_r2_val, decodeFields_r3_val]
  omega

theorem fields_iff_and_lowFieldMask (w : Word) (op r1 r2 : Fin 16) :
    ((decodeFields w).opcode = op ∧ (decodeFields w).r1 = r1 ∧ (decodeFields w).r2 = r2) ↔
      w &&& 0xFFF0#16 = registerForm op r1 r2 0 := by
  rw [← BitVec.toNat_inj, and_lowFieldMask_toNat, registerForm_toNat op.isLt r1.isLt r2.isLt (by decide)]
  simp only [Fin.ext_iff, decodeFields_opcode_val, decodeFields_r1_val, decodeFields_r2_val]
  omega

theorem fields_iff_and_modeMask (w : Word) (op r1 : Fin 16) :
    ((decodeFields w).opcode = op ∧ (decodeFields w).r1 = r1) ↔ w &&& 0xFF00#16 = registerForm op r1 0 0 := by
  rw [← BitVec.toNat_inj, and_modeMask_toNat, registerForm_toNat op.isLt r1.isLt (by decide) (by decide)]
  simp only [Fin.ext_iff, decodeFields_opcode_val, decodeFields_r1_val]
  omega

theorem opcode_iff_and_opcodeMask (w : Word) (op : Fin 16) :
    (decodeFields w).opcode = op ↔ w &&& 0xF000#16 = registerForm op 0 0 0 := by
  rw [← BitVec.toNat_inj, and_opcodeMask_toNat, registerForm_toNat op.isLt (by decide) (by decide) (by decide)]
  simp only [Fin.ext_iff, decodeFields_opcode_val]
  omega

theorem fields_iff_encode_bir (w : Word) (a : Addr12) :
    ((decodeFields w).opcode = 0xA ∧ (decodeFields w).addr12 = a) ↔ w &&& 0xFFFF#16 = encode (.bir a) := by
  rw [and_fullMask, ← BitVec.toNat_inj, ← BitVec.toNat_inj, encode, BitVec.toNat_ofNat]
  simp only [Fin.ext_iff, decodeFields_opcode_val, decodeFields_addr12_toNat, Fin.coe_ofNat_eq_mod]
  omega

theorem fields_iff_encode_ldi (w : Word) (r1 : RegIdx) (v : Byte) :
    ((decodeFields w).opcode = 0xD ∧ (decodeFields w).r1 = r1 ∧ (decodeFields w).imm8 = v) ↔
      w &&& 0xFFFF#16 = encode (.ldi r1 v) := by
  rw [and_fullMask, ← BitVec.toNat_inj, ← BitVec.toNat_inj, encode, BitVec.toNat_ofNat]
  simp only [Fin.ext_iff, decodeFields_opcode_val, decodeFields_r1_val, decodeFields_imm8_toNat, Fin.coe_ofNat_eq_mod]
  omega

/-- A word's fields read as an instruction exactly when its used bits are those of the instruction's encoding. -/
theorem readFrom_iff_and_usedBits (w : Word) (i : Instr) :
    i.ReadFrom (decodeFields w) ↔ w &&& i.usedBits = encode i := by
  cases i with
  | add | sub | div | and | orr | xor | lsh | rsh | cmpEq | cmpGt | cmpLt | cmpGe | cmpLe | cmpNe =>
    exact fields_iff_and_fullMask w _ _ _ _
  | not | ldm | str => exact fields_iff_and_lowFieldMask w _ _ _
  | spg => exact fields_iff_and_modeMask w _ _
  | ret => exact opcode_iff_and_opcodeMask w _
  | bir a => exact fields_iff_encode_bir w a
  | ldi r1 v => exact fields_iff_encode_ldi w r1 v

/-- The decoder answers `i` exactly for the words with the used bits of `i`'s encoding (R59, R60). -/
theorem decode_eq_instr_iff (w : Word) (i : Instr) : decode w = .instr i ↔ w &&& i.usedBits = encode i :=
  (dispatchOpcode_eq_instr_iff _ i).trans (readFrom_iff_and_usedBits w i)

/-- The encoder writes don't-care fields as 0 (R61). -/
theorem encode_and_usedBits (i : Instr) : encode i &&& i.usedBits = encode i := by
  cases i with
  | not r1 r2 | ldm r1 r2 | str r1 r2 =>
    apply BitVec.eq_of_toNat_eq
    rw [Instr.usedBits, and_lowFieldMask_toNat, encode, registerForm_toNat (by decide) r1.isLt r2.isLt (by decide)]
    omega
  | spg r1 => exact registerForm_and_modeMask (by decide) r1.isLt (by decide) (by decide)
  | ret => exact registerForm_and_opcodeMask (by decide) (by decide) (by decide) (by decide)
  | _ => exact and_fullMask _

/-- Settles O1: an encoding has its own used bits. -/
theorem decodeOfEncode : Obligations.DecodeOfEncode := fun i =>
  (decode_eq_instr_iff _ i).mpr (encode_and_usedBits i)

/-- Settles O2: decoding to `i` looks at `i`'s used bits alone. -/
theorem dontCareBitsHaveNoEffect : Obligations.DontCareBitsHaveNoEffect := by
  intro w v i hd
  have hbits := (decode_eq_instr_iff w i).mp hd
  exact ⟨hbits.symm, fun hv => (decode_eq_instr_iff v i).mpr (hv.trans hbits)⟩

/-! ### The illegal words -/

/-- A word is illegal exactly when it is a CMP with a mode field of 6..15, its raw field `r1` (R62, D18). -/
theorem decode_eq_illegalCompareMode_iff (w : Word) (m : Fin 16) :
    decode w = .illegalCompareMode m ↔ 0xE600 ≤ w.toNat ∧ w.toNat ≤ 0xEFFF ∧ m.val = w.toNat / 256 % 16 := by
  rw [decode, dispatchOpcode_eq_illegalCompareMode_iff]
  simp only [Fin.ext_iff, decodeFields_opcode_val, decodeFields_r1_val, Fin.coe_ofNat_eq_mod]
  omega

/-- Every word is an instruction or an illegal CMP: the table assigns all 16 opcodes (R62, C3). -/
theorem decode_cases (w : Word) :
    (∃ i : Instr, decode w = .instr i) ∨ ∃ m : Fin 16, decode w = .illegalCompareMode m := by
  cases hd : decode w with
  | instr i => exact .inl ⟨i, rfl⟩
  | illegalCompareMode m => exact .inr ⟨m, rfl⟩
  | illegalOpcode op => exact absurd hd (Machine.decode_ne_illegalOpcode w op)

theorem legal_eq_false_iff (w : Word) : (decode w).legal = false ↔ 0xE600 ≤ w.toNat ∧ w.toNat ≤ 0xEFFF := by
  constructor
  · intro hlegal
    rcases decode_cases w with ⟨i, hd⟩ | ⟨m, hd⟩
    · exact nomatch hlegal.symm.trans (congrArg Decoded.legal hd)
    · obtain ⟨hlo, hhi, -⟩ := (decode_eq_illegalCompareMode_iff w m).mp hd
      exact ⟨hlo, hhi⟩
  · rintro ⟨hlo, hhi⟩
    have hmode : w.toNat / 256 % 16 < 16 := Nat.mod_lt _ (by decide)
    rw [(decode_eq_illegalCompareMode_iff w ⟨_, hmode⟩).mpr ⟨hlo, hhi, rfl⟩]
    rfl

/-- The numbers of the illegal words are an interval. -/
theorem filter_illegal_eq_Icc :
    (Finset.range 65536).filter (fun n => (decode (BitVec.ofNat 16 n)).legal = false) = Finset.Icc 0xE600 0xEFFF := by
  ext n
  rw [Finset.mem_filter, Finset.mem_range, Finset.mem_Icc, legal_eq_false_iff, BitVec.toNat_ofNat]
  omega

theorem filter_legal_eq_sdiff :
    (Finset.range 65536).filter (fun n => (decode (BitVec.ofNat 16 n)).legal = true) =
      Finset.range 65536 \ Finset.Icc 0xE600 0xEFFF := by
  ext n
  rw [← filter_illegal_eq_Icc, Finset.mem_sdiff, Finset.mem_filter, Finset.mem_filter, not_and, Bool.not_eq_false]
  exact and_congr_right fun hn => (imp_iff_right hn).symm

/-- Settles O5: the illegal words are counted by their interval, the legal ones are the rest. -/
theorem illegalWordCount : Obligations.IllegalWordCount := by
  have hsub : Finset.Icc 0xE600 0xEFFF ⊆ Finset.range 65536 := fun n hn => by
    rw [Finset.mem_Icc] at hn
    exact Finset.mem_range.mpr (by omega)
  constructor
  · rw [filter_illegal_eq_Icc, Nat.card_Icc]
  · rw [filter_legal_eq_sdiff, Finset.card_sdiff_of_subset hsub, Finset.card_range, Nat.card_Icc]

/-! ### The opcode table

Every instruction's words lie in the row of its mnemonic, an illegal word lies in no row, and no word lies in two rows. -/

/-- Every instruction's encoding lies in its row. -/
theorem encodesInRow (i : Instr) : Laws.EncodesInRow.Statement i :=
  match i with
  | .add r1 r2 r3 => Laws.EncodesInRow.add r1 r2 r3
  | .sub r1 r2 r3 => Laws.EncodesInRow.sub r1 r2 r3
  | .div r1 r2 r3 => Laws.EncodesInRow.div r1 r2 r3
  | .and r1 r2 r3 => Laws.EncodesInRow.and r1 r2 r3
  | .orr r1 r2 r3 => Laws.EncodesInRow.orr r1 r2 r3
  | .xor r1 r2 r3 => Laws.EncodesInRow.xor r1 r2 r3
  | .not r1 r2 => Laws.EncodesInRow.not r1 r2
  | .lsh r1 r2 r3 => Laws.EncodesInRow.lsh r1 r2 r3
  | .rsh r1 r2 r3 => Laws.EncodesInRow.rsh r1 r2 r3
  | .ret => Laws.EncodesInRow.ret
  | .bir a => Laws.EncodesInRow.bir a
  | .ldm r1 r2 => Laws.EncodesInRow.ldm r1 r2
  | .str r1 r2 => Laws.EncodesInRow.str r1 r2
  | .ldi r1 v => Laws.EncodesInRow.ldi r1 v
  | .cmpEq r2 r3 => Laws.EncodesInRow.cmpEq r2 r3
  | .cmpGt r2 r3 => Laws.EncodesInRow.cmpGt r2 r3
  | .cmpLt r2 r3 => Laws.EncodesInRow.cmpLt r2 r3
  | .cmpGe r2 r3 => Laws.EncodesInRow.cmpGe r2 r3
  | .cmpLe r2 r3 => Laws.EncodesInRow.cmpLe r2 r3
  | .cmpNe r2 r3 => Laws.EncodesInRow.cmpNe r2 r3
  | .spg r1 => Laws.EncodesInRow.spg r1

/-- A row's mask asks for used bits of its instruction alone. -/
theorem usedBits_and_rowMask {i : Instr} {row : TableRow} (hrow : row ∈ opcodeTable) (hname : row.mnemonic = i.mnemonic) :
    i.usedBits &&& row.mask = row.mask := by
  cases i with
  | ret =>
    revert row
    decide
  | not | ldm | str =>
    have hmask : ∀ row ∈ opcodeTable, 0xFFF0#16 &&& row.mask = row.mask := by decide
    exact hmask row hrow
  | spg =>
    have hmask : ∀ row ∈ opcodeTable, 0xFF00#16 &&& row.mask = row.mask := by decide
    exact hmask row hrow
  | _ => exact (BitVec.and_comm _ _).trans (and_fullMask row.mask)

/-- A word that decodes to an instruction lies in a row of the instruction's mnemonic. -/
theorem exists_row_of_decode {w : Word} {i : Instr} (hd : decode w = .instr i) :
    ∃ row ∈ opcodeTable, row.mnemonic = i.mnemonic ∧ w &&& row.mask = row.bits := by
  obtain ⟨row, hrow, hname, hbits⟩ := encodesInRow i
  refine ⟨row, hrow, hname, ?_⟩
  calc
    w &&& row.mask = w &&& (i.usedBits &&& row.mask) := by rw [usedBits_and_rowMask hrow hname]
    _ = encode i &&& row.mask := by rw [← BitVec.and_assoc, (decode_eq_instr_iff w i).mp hd]
    _ = row.bits := hbits

/-- Two masked patterns that one word meets agree where both masks look. -/
theorem pattern_and_mask_comm {w mask bits mask' bits' : Word} (h : w &&& mask = bits) (h' : w &&& mask' = bits') :
    bits &&& mask' = bits' &&& mask := by
  rw [← h, ← h', BitVec.and_assoc, BitVec.and_assoc, BitVec.and_comm mask]

/-- No word lies in two rows. -/
theorem row_eq_of_and_mask {w : Word} {row row' : TableRow} (hrow : row ∈ opcodeTable) (hrow' : row' ∈ opcodeTable)
    (h : w &&& row.mask = row.bits) (h' : w &&& row'.mask = row'.bits) : row = row' := by
  have hdisjoint : ∀ row ∈ opcodeTable, ∀ row' ∈ opcodeTable,
      row.bits &&& row'.mask = row'.bits &&& row.mask → row = row' := by decide
  exact hdisjoint row hrow row' hrow' (pattern_and_mask_comm h h')

/-- A mnemonic names one row. -/
theorem row_eq_of_mnemonic {row row' : TableRow} (hrow : row ∈ opcodeTable) (hrow' : row' ∈ opcodeTable)
    (h : row.mnemonic = row'.mnemonic) : row = row' := by
  have hnodup : (opcodeTable.map TableRow.mnemonic).Nodup := by decide
  exact List.inj_on_of_nodup_map hnodup hrow hrow' h

/-- An illegal word lies in no row: the CMP rows end at mode 5. -/
theorem and_mask_ne_of_illegal {w : Word} {m : Fin 16} (hd : decode w = .illegalCompareMode m) {row : TableRow}
    (hrow : row ∈ opcodeTable) : w &&& row.mask ≠ row.bits := by
  obtain ⟨hop, hmode, hm⟩ := (dispatchOpcode_eq_illegalCompareMode_iff (decodeFields w) m).mp hd
  have hdisjoint : ∀ m : Fin 16, 6 ≤ m.val → ∀ row ∈ opcodeTable,
      row.bits &&& 0xFF00#16 ≠ registerForm 0xE m 0 0 &&& row.mask := by decide
  intro hw
  exact hdisjoint m hm row hrow (pattern_and_mask_comm hw ((fields_iff_and_modeMask w 0xE m).mp ⟨hop, hmode⟩))

/-- Settles O3: the row a word lies in and the row of the instruction it decodes to are one row. -/
theorem opcodeTableAgreesWithDecoder : Obligations.OpcodeTableAgreesWithDecoder := by
  intro w row hrow
  constructor
  · intro hw
    rcases decode_cases w with ⟨i, hd⟩ | ⟨m, hd⟩
    · obtain ⟨row', hrow', hname, hw'⟩ := exists_row_of_decode hd
      rw [row_eq_of_and_mask hrow hrow' hw hw']
      exact ⟨i, hd, hname.symm⟩
    · exact absurd hw (and_mask_ne_of_illegal hd hrow)
  · rintro ⟨i, hd, hname⟩
    obtain ⟨row', hrow', hname', hw'⟩ := exists_row_of_decode hd
    rw [row_eq_of_mnemonic hrow hrow' (hname.symm.trans hname'.symm)]
    exact hw'

end Sys2Proof

namespace Sys2Proof.Machine

/-! ### Executing an illegal word -/

/-- The faults of an instruction: its kinds are not those of an illegal word (R101). -/
theorem ExecEffect.kind_of_faulted {s t : State} {i : Instr} (heff : ExecEffect s i t) (hrun : s.status = .running)
    {rec : FaultRecord} (h : t.status = .faulted rec) :
    rec.kind = .divideByZero ∨ rec.kind = .callStackOverflow ∨ rec.kind = .pcUnderflow := by
  cases heff with
  | dividesByZero =>
    obtain rfl := Status.faulted.inj h
    exact .inl rfl
  | overflows =>
    obtain rfl := Status.faulted.inj h
    exact .inr (.inl rfl)
  | underflows =>
    obtain rfl := Status.faulted.inj h
    exact .inr (.inr rfl)
  | _ => exact nomatch hrun.symm.trans h

/-- The termination check makes no fault (R73). -/
theorem State.status_of_finishTick_faulted {s : State} {rec : FaultRecord} (h : s.finishTick.status = .faulted rec) :
    s.status = .faulted rec := by
  rcases s.finishTick_cases with ⟨-, -, e⟩ | ⟨-, e⟩
  · rw [e] at h
    cases h
  · rwa [e] at h

/-- A tick that executes an illegal compare mode faults with it (R62). -/
theorem step_of_illegalCompareMode {s : State} {m : Fin 16} (hf : s.fetches = true)
    (hd : decode s.fetchWord = .illegalCompareMode m) :
    step s = .next (s.raiseFault .illegalCompareMode s.fetchWord m.val) := by
  have hhalted : (s.raiseFault .illegalCompareMode s.fetchWord m.val).status ≠ .running := nofun
  simp [step, hf, hd, executeDecoded, execIllegalCompareMode, finishOutcome, State.finishTick_of_halted hhalted]

/-- No tick of a Running core faults with `IllegalOpcode` (R62, C3). -/
theorem kind_ne_illegalOpcode_of_tick {s : State} {rec : FaultRecord} (hrun : s.status = .running)
    (h : (tick s).status = .faulted rec) : rec.kind ≠ .illegalOpcode := by
  rcases tick_cases s with ⟨-, i, t, -, heff, e⟩ | ⟨-, m, -, e⟩ | ⟨-, e⟩
  · rw [e] at h
    rcases heff.kind_of_faulted hrun (State.status_of_finishTick_faulted h) with hk | hk | hk <;> simp [hk]
  · rw [e] at h
    obtain rfl := Status.faulted.inj h
    nofun
  · rw [e] at h
    exact nomatch hrun.symm.trans (State.status_of_finishTick_faulted h)

/-- Settles O4: the illegal words by their fields, and what a tick does with one. -/
theorem illegalWordsAreCompareModesAboveFive : Obligations.IllegalWordsAreCompareModesAboveFive :=
  ⟨decode_eq_illegalCompareMode_iff, decode_ne_illegalOpcode,
    fun _ _ hf hd => ⟨_, _, step_of_illegalCompareMode hf hd, rfl, rfl⟩,
    fun _ _ hrun h => kind_ne_illegalOpcode_of_tick hrun h⟩

/-! ### The idioms (R66) -/

/-- A sequence runs on from the state its first instruction answers. -/
theorem execAll_cons {i : Instr} {s t : State} (rest : List Instr) (h : exec i s = .next t) :
    execAll (i :: rest) s = execAll rest t := by
  simp [execAll, h]

theorem execAll_singleton {i : Instr} {s t : State} (h : exec i s = .next t) : execAll [i] s = .next t :=
  execAll_cons [] h

/-- The multiplexer's write touches one register and the sequential pc. -/
theorem writesRegisterOnly_writeBack (r : RegIdx) (v : Byte) (s : State) : WritesRegisterOnly r v s (writeBack r v s) where
  registers := writeBack_readReg r v s
  pc := rfl
  stack := rfl
  memory _ := rfl
  control := ⟨rfl, rfl, rfl, rfl, rfl⟩

/-- BIR with the flag set and room on the stack, at `Target` (R90). -/
theorem exec_bir_of_target {s : State} (a : Addr12) (hflag : s.flag = true)
    (hroom : s.config.callStackDepth ≠ some s.stack.length) (hnext : s.config.birTakenNext = .target) :
    exec (.bir a) s = .next (branchTo a a.toNat s) := by
  rcases exec_bir_cases a s with
    ⟨hclear, -⟩ | ⟨-, hfull, -⟩ | ⟨-, -, -, e⟩ | ⟨-, -, hminus, -⟩ | ⟨-, -, hminus, -⟩
  · exact nomatch hclear.symm.trans hflag
  · exact absurd (s.stackFull_iff.mp hfull) hroom
  · exact e
  · exact nomatch hminus.symm.trans hnext
  · exact nomatch hminus.symm.trans hnext

/-- A register equals itself, so the CMP of JMP sets the flag (R66). -/
theorem compareInto_eq_self_flag (r : RegIdx) (s : State) : (compareInto .eq r r s).flag = true := by
  simp [compareHolds]

/-- MOV's sum: register 0 reads 0 (R20). -/
theorem exec_mov (rD rA : RegIdx) (s : State) : exec (.add rD rA 0) s = .next (writeBack rD (s.readReg rA) s) := by
  simp [exec_add, State.readReg]

/-- Settles O56: NOP is a write to register 0, MOV a write of `x[rA] + 0`, JMP a CMP that holds and a taken BIR. -/
theorem idiomsDoAsListed : Obligations.IdiomsDoAsListed := by
  refine ⟨fun s => ?_, fun rD rA s => ?_, fun a s hroom hnext => ?_⟩
  · exact ⟨_, execAll_singleton (exec_add 0 0 0 s), sameButSlot0_writeReg_zero s.advance _⟩
  · exact ⟨_, execAll_singleton (exec_mov rD rA s), writesRegisterOnly_writeBack rD _ s⟩
  · have hflag := compareInto_eq_self_flag 0 s
    have hbir := exec_bir_of_target a hflag hroom hnext
    refine ⟨_, (execAll_cons _ (exec_cmpEq 0 0 s)).trans (execAll_singleton hbir), hflag, rfl, rfl, ?_⟩
    exact ⟨fun _ => rfl, fun _ => rfl, rfl, rfl, rfl, rfl⟩

end Sys2Proof.Machine

end

/-! ## The tick (40_tick.md R68 to R75)

A step answers the tick, so a run of the core is its ticks. Of a tick that fetches there are two kinds: a fault, which raises
its record over the state it began with, and an instruction's effect that still runs, which the termination check then looks
at. A state that a tick leaves as it is stays for ever; halted states and the spinning BIR are such states. -/

section

namespace Sys2Proof.Machine

/-! ### Steps, ticks and runs of the core -/

/-- The one outcome of a step is the next state: a meaning that raises a fault answers one too (log entry 3). -/
theorem step_eq_next_tick (s : State) : step s = .next (tick s) := by
  have hnext : ∃ t : State, step s = .next t := by
    rcases step_cases s with ⟨-, i, -, e⟩ | ⟨-, m, -, e⟩ | ⟨-, op, -, e⟩ | ⟨-, e⟩
    · obtain ⟨t, he, -⟩ := exec_effect i s
      exact ⟨t.finishTick, by rw [e, he, finishOutcome]⟩
    · exact ⟨_, e⟩
    · exact ⟨_, e⟩
    · exact ⟨_, e⟩
  obtain ⟨t, ht⟩ := hnext
  rw [ht, tick_of_step ht]

theorem core_run_eq_next_ticks (k : Nat) (s : State) : Sys2Proof.core.run k s = .next (ticks k s) := by
  induction k generalizing s with
  | zero => exact core_run_zero s
  | succ k ih => rw [core_run_succ k (step_eq_next_tick s), ih, ticks_succ]

/-- Settles O13: no meaning answers a fault or a refusal of the interface. -/
theorem stepAlwaysAnswersNext : Obligations.StepAlwaysAnswersNext := fun s =>
  ⟨step_eq_next_tick s, fun k => core_run_eq_next_ticks k s⟩

theorem ticks_add (j k : Nat) (s : State) : ticks (j + k) s = ticks k (ticks j s) := by
  induction k with
  | zero => rfl
  | succ k ih => rw [← Nat.add_assoc, ticks_succ_last, ih, ← ticks_succ_last]

/-! ### States that a tick leaves as they are -/

theorem ticks_of_tick_eq_self {s : State} (h : tick s = s) (k : Nat) : ticks k s = s := by
  induction k with
  | zero => rfl
  | succ k ih => rw [ticks_succ, h, ih]

theorem core_run_of_tick_eq_self {s : State} (h : tick s = s) (k : Nat) : Sys2Proof.core.run k s = .next s := by
  rw [core_run_eq_next_ticks, ticks_of_tick_eq_self h]

/-- A halted state fetches nothing, and the termination check is for Running states (R71). -/
theorem tick_of_halted {s : State} (h : s.status ≠ .running) : tick s = s := by
  have hf : s.fetches ≠ true := fun hf => h (s.fetches_iff.mp hf).1
  rcases tick_cases s with ⟨hf', -⟩ | ⟨hf', -⟩ | ⟨-, e⟩
  · exact absurd hf' hf
  · exact absurd hf' hf
  · rw [e, State.finishTick_of_halted h]

/-- Settles O14: a halted state is its own next state. -/
theorem haltedStateIsFinal : Obligations.HaltedStateIsFinal := by
  intro s h k
  have hself := tick_of_halted h
  exact ⟨by rw [step_eq_next_tick, hself], core_run_of_tick_eq_self hself k⟩

/-- A BIR with the flag clear keeps pc, which is inside the store, so the termination check does nothing (R75). -/
theorem tick_of_spin {s : State} {a : Addr12} (hf : s.fetches = true) (hd : decode s.fetchWord = .instr (.bir a))
    (hflag : s.flag = false) : tick s = s := by
  have he : exec (.bir a) s = .next s := by
    rcases exec_bir_cases a s with ⟨-, e⟩ | ⟨hset, -⟩ | ⟨hset, -⟩ | ⟨hset, -⟩ | ⟨hset, -⟩
    · exact e
    all_goals exact nomatch hflag.symm.trans hset
  rw [tick_of_exec hf hd he, State.finishTick_of_lt (s.fetches_iff.mp hf).2]

/-- Settles O20: a spinning BIR's state is its own next state. -/
theorem notTakenBirSpinsForever : Obligations.NotTakenBirSpinsForever := fun _ _ hf hd hflag k =>
  core_run_of_tick_eq_self (tick_of_spin hf hd hflag) k

/-! ### The end of a run -/

/-- Once halted, a run does not move on. -/
theorem ticks_eq_of_halted_of_le {s : State} {j k : Nat} (h : (ticks j s).status ≠ .running) (hjk : j ≤ k) :
    ticks k s = ticks j s := by
  obtain ⟨n, rfl⟩ := Nat.exists_eq_add_of_le hjk
  rw [ticks_add, ticks_of_tick_eq_self (tick_of_halted h)]

/-- A run halts in one state. -/
theorem ticks_eq_of_halted {s : State} {j k : Nat} (hj : (ticks j s).status ≠ .running)
    (hk : (ticks k s).status ≠ .running) : ticks j s = ticks k s := by
  rcases Nat.le_total j k with hjk | hkj
  · exact (ticks_eq_of_halted_of_le hj hjk).symm
  · exact ticks_eq_of_halted_of_le hk hkj

/-- Settles O32: a run that does not stay Running halts, and it halts in one state, which has one status. -/
theorem runHasExactlyOneOutcome : Obligations.RunHasExactlyOneOutcome := by
  refine fun s => ⟨?_, fun j k rec hj hk => ?_, fun j k rec rec' hj hk => ?_⟩
  · by_cases hrun : ∀ k : Nat, (ticks k s).status = .running
    · exact .inr (.inr hrun)
    · obtain ⟨k, hk⟩ := not_forall.mp hrun
      cases hst : (ticks k s).status with
      | running => exact absurd hst hk
      | terminated => exact .inl ⟨k, hst⟩
      | faulted rec => exact .inr (.inl ⟨k, rec, hst⟩)
  · have hsame : ticks j s = ticks k s := ticks_eq_of_halted (by simp [hj]) (by simp [hk])
    rw [hsame, hk] at hj
    cases hj
  · have hsame : ticks j s = ticks k s := ticks_eq_of_halted (by simp [hj]) (by simp [hk])
    rw [hsame, hk] at hj
    exact (Status.faulted.inj hj).symm

/-! ### The two kinds of a tick that fetches -/

theorem ExecEffect.config_eq {s t : State} {i : Instr} (heff : ExecEffect s i t) : t.config = s.config := by
  cases heff <;> rfl

/-- An effect keeps the run status, or raises a fault that names the word it was decoded from (log entry 8). -/
theorem ExecEffect.status_eq_or_raiseFault {s t : State} {i : Instr} (heff : ExecEffect s i t)
    (hd : decode s.fetchWord = .instr i) :
    t.status = s.status ∨ ∃ (kind : FaultKind) (value : Nat), t = s.raiseFault kind s.fetchWord value := by
  cases heff with
  | dividesByZero => exact .inr ⟨_, _, by rw [encode_div_of_decode hd]⟩
  | overflows | underflows => exact .inr ⟨_, _, by rw [encode_bir_of_decode hd]⟩
  | _ => exact .inl rfl

/-- A tick that fetches raises a fault over the state it began with, or is the termination check on an effect that runs. -/
theorem tick_cases_of_fetches {s : State} (hf : s.fetches = true) :
    (∃ (kind : FaultKind) (value : Nat), tick s = s.raiseFault kind s.fetchWord value) ∨
    ∃ (i : Instr) (t : State), ExecEffect s i t ∧ t.status = .running ∧ tick s = t.finishTick := by
  have hrun := (s.fetches_iff.mp hf).1
  rcases tick_cases s with ⟨-, i, t, hd, heff, e⟩ | ⟨-, m, -, e⟩ | ⟨hno, -⟩
  · rcases heff.status_eq_or_raiseFault hd with hst | ⟨kind, value, rfl⟩
    · exact .inr ⟨i, t, heff, hst.trans hrun, e⟩
    · exact .inl ⟨kind, value, by rw [e, State.finishTick_of_halted (by simp)]⟩
  · exact .inl ⟨_, _, e⟩
  · exact nomatch hno.symm.trans hf

/-! ### A tick that faults -/

/-- Raising a fault writes nothing but the record and the sequential pc (R70, R103). -/
theorem faultsWith_raiseFault (s : State) (kind : FaultKind) (word : Word) (value : Nat) :
    FaultsWith ⟨kind, s.pc, word, value⟩ s (s.raiseFault kind word value) where
  status := rfl
  registers := s.raiseFault_readReg kind word value
  flag := rfl
  stack := rfl
  activePage := rfl
  memory := s.raiseFault_byteAt kind word value
  programStore := rfl
  config := rfl

/-- A Running core faults only by raising a fault for the word it fetched. -/
theorem tick_eq_raiseFault_of_faulted {s : State} {rec : FaultRecord} (hrun : s.status = .running)
    (h : (tick s).status = .faulted rec) :
    ∃ (kind : FaultKind) (value : Nat), tick s = s.raiseFault kind s.fetchWord value := by
  rcases hf : s.fetches with _ | _
  · have e : tick s = s.finishTick := tick_of_step (by simp [step, hf])
    rw [e] at h
    exact nomatch hrun.symm.trans (State.status_of_finishTick_faulted h)
  · rcases tick_cases_of_fetches hf with hfault | ⟨i, t, -, hrun', e⟩
    · exact hfault
    · rw [e] at h
      exact nomatch hrun'.symm.trans (State.status_of_finishTick_faulted h)

/-- Settles O22: the state after the tick is the one that raising the fault gives. -/
theorem faultingTickWritesNothing : Obligations.FaultingTickWritesNothing := by
  intro s rec hrun h
  obtain ⟨kind, value, e⟩ := tick_eq_raiseFault_of_faulted hrun h
  rw [e] at h ⊢
  obtain rfl := Status.faulted.inj h
  exact ⟨faultsWith_raiseFault s kind s.fetchWord value, rfl, rfl, rfl⟩

/-! ### A tick that does not fault -/

theorem not_safe_raiseFault (s : State) (kind : FaultKind) (word : Word) (value : Nat) :
    ¬ (s.raiseFault kind word value).Safe := fun h => h _ rfl

/-- A tick that fetches and does not fault is the termination check on an effect that runs. -/
theorem exists_effect_of_safe {s : State} (hf : s.fetches = true) (hsafe : (tick s).Safe) :
    ∃ (i : Instr) (t : State), ExecEffect s i t ∧ t.status = .running ∧ tick s = t.finishTick := by
  rcases tick_cases_of_fetches hf with ⟨kind, value, e⟩ | heff
  · rw [e] at hsafe
    exact absurd hsafe (not_safe_raiseFault s kind _ value)
  · exact heff

/-- Settles O18: the termination check compares the pc of the effect with the capacity, which no effect changes. -/
theorem terminationExactlyPastStore : Obligations.TerminationExactlyPastStore := by
  intro s hf hsafe
  obtain ⟨i, t, heff, hrun, e⟩ := exists_effect_of_safe hf hsafe
  rw [e, State.finishTick_pc, ← heff.config_eq]
  rcases Nat.lt_or_ge t.pc t.config.capacity with hlt | hge
  · rw [State.finishTick_of_lt hlt, hrun]
    simpa using hlt
  · rw [State.finishTick_of_le hrun hge]
    simpa using hge

/-- The pc after an effect: the sequential one, the spin's, or a 12-bit program address (R22, R72). -/
theorem ExecEffect.pc_cases {s t : State} {i : Instr} (heff : ExecEffect s i t) :
    t.pc = s.pc + 1 ∨ t.pc = s.pc ∨ t.pc < 4096 := by
  cases heff with
  | spins => exact .inr (.inl rfl)
  | pops a => exact .inr (.inr a.isLt)
  | branches a n hflag hroom hn => exact .inr (.inr (hn.trans_lt a.isLt))
  | _ => exact .inl rfl

/-- Settles O19: past address 4095 there is only the sequential pc. -/
theorem fullStoreEndsAfterLastWord : Obligations.FullStoreEndsAfterLastWord := by
  intro s hs hcap hrun hterm
  have hin : s.pc < s.config.capacity := hs.pcRunning hrun
  have hf : s.fetches = true := s.fetches_iff.mpr ⟨hrun, hin⟩
  have hsafe : (tick s).Safe := fun rec hfault => nomatch hterm.symm.trans hfault
  have hpast : s.config.capacity ≤ (tick s).pc := (terminationExactlyPastStore s hf hsafe).1.mp hterm
  obtain ⟨i, t, heff, -, e⟩ := exists_effect_of_safe hf hsafe
  have hpc := heff.pc_cases
  rw [e, State.finishTick_pc] at hpast ⊢
  omega

/-! ### The next-pc table (R72) -/

/-- Every instruction but RET and BIR moves pc on by one and keeps the call stack. -/
theorem ExecEffect.sequential {s t : State} {i : Instr} (heff : ExecEffect s i t) (hret : i ≠ .ret)
    (hbir : ∀ a : Addr12, i ≠ .bir a) : t.pc = s.pc + 1 ∧ t.stack = s.stack := by
  cases heff with
  | pops => exact absurd rfl hret
  | spins a | branches a => exact absurd rfl (hbir a)
  | _ => exact ⟨rfl, rfl⟩

theorem tick_sequential {s : State} {i : Instr} (hf : s.fetches = true) (hd : decode s.fetchWord = .instr i)
    (hret : i ≠ .ret) (hbir : ∀ a : Addr12, i ≠ .bir a) : (tick s).pc = s.pc + 1 ∧ (tick s).stack = s.stack := by
  obtain ⟨t, he, heff⟩ := exec_effect i s
  rw [tick_of_exec hf hd he, State.finishTick_pc, State.finishTick_stack]
  exact heff.sequential hret hbir

/-- RET on an empty call stack is sequential (R89). -/
theorem tick_ret_of_empty {s : State} (hf : s.fetches = true) (hd : decode s.fetchWord = .instr .ret)
    (hempty : s.stack = []) : (tick s).pc = s.pc + 1 ∧ (tick s).stack = [] := by
  rcases exec_ret_cases s with ⟨-, e⟩ | ⟨a, htop, -⟩
  · simp [tick_of_exec hf hd e, hempty]
  · simp [hempty] at htop

/-- RET pops the top of the call stack into pc (R89). -/
theorem tick_ret_of_push {s : State} (hf : s.fetches = true) (hd : decode s.fetchWord = .instr .ret)
    {rest : List Addr12} {a : Addr12} (hstack : s.stack = rest ++ [a]) :
    (tick s).pc = a.toNat ∧ (tick s).stack = rest := by
  rcases exec_ret_cases s with ⟨hempty, -⟩ | ⟨b, htop, e⟩
  · simp [hempty] at hstack
  · obtain rfl : a = b := by simpa [hstack] using htop
    simp [tick_of_exec hf hd e, hstack]

/-- A taken BIR that does not fault pushes its target and goes where `BIR_TAKEN_NEXT` says (R90, D3). -/
theorem tick_bir_of_taken {s : State} {a : Addr12} (hf : s.fetches = true)
    (hd : decode s.fetchWord = .instr (.bir a)) (hsafe : (tick s).Safe) (hflag : s.flag = true) :
    (tick s).stack = s.stack ++ [a] ∧
      (s.config.birTakenNext = .target → (tick s).pc = a.toNat) ∧
      (s.config.birTakenNext = .targetMinus1 → (tick s).pc + 1 = a.toNat) := by
  have hnofault (kind : FaultKind) (word : Word) (value : Nat) :
      exec (.bir a) s ≠ .next (s.raiseFault kind word value) := fun e => by
    rw [tick_of_exec hf hd e, State.finishTick_of_halted (by simp)] at hsafe
    exact not_safe_raiseFault s kind word value hsafe
  rcases exec_bir_cases a s with
    ⟨hclear, -⟩ | ⟨-, -, e⟩ | ⟨-, -, hnext, e⟩ | ⟨-, -, -, -, e⟩ | ⟨-, -, hnext, hne, e⟩
  · exact nomatch hclear.symm.trans hflag
  · exact absurd e (hnofault _ _ _)
  · simp [tick_of_exec hf hd e, hnext]
  · exact absurd e (hnofault _ _ _)
  · have hpos : a.toNat ≠ 0 := fun h => hne (BitVec.eq_of_toNat_eq h)
    rw [tick_of_exec hf hd e, State.finishTick_pc, State.finishTick_stack, branchTo_pc]
    exact ⟨rfl, fun htarget => (nomatch hnext.symm.trans htarget), fun _ => by omega⟩

/-- Settles O17: RET and BIR by their own rows of the table, every other instruction by the sequential row. -/
theorem nextPcTable : Obligations.NextPcTable := by
  intro s i hf hd hsafe
  cases i with
  | ret => exact ⟨tick_ret_of_empty hf hd, fun rest a => tick_ret_of_push hf hd⟩
  | bir a =>
    refine ⟨fun hclear => ?_, tick_bir_of_taken hf hd hsafe⟩
    rw [tick_of_spin hf hd hclear]
    exact ⟨rfl, rfl⟩
  | _ => exact tick_sequential hf hd nofun nofun

/-! ### A step on a known instruction -/

/-- The step on a word that decodes to `i` is `exec i` and the termination check (R68). -/
theorem step_of_exec {s t : State} {i : Instr} (hf : s.fetches = true) (hd : decode s.fetchWord = .instr i)
    (he : exec i s = .next t) : step s = .next t.finishTick := by
  rw [step_eq_next_tick, tick_of_exec hf hd he]

/-- Settles O15: the statement's last line is the termination check. -/
theorem stepRunsDecodedInstruction : Obligations.StepRunsDecodedInstruction := fun s _ _ hrun hpc hd he =>
  step_of_exec (s.fetches_iff.mpr ⟨hrun, hpc⟩) hd he

theorem decode_tableWord_of_decodeTableWord {nbits w : Nat} {i : Instr} (h : decodeTableWord nbits w = some i) :
    decode (tableWord nbits w) = .instr i := by
  unfold decodeTableWord at h
  split at h
  · next hd => rw [hd, Option.some.inj h]
  all_goals cases h

/-- The program words after one is placed where the next tick fetches. -/
theorem State.programWord_withFetchWord (s : State) (nbits w a : Nat) :
    (s.withFetchWord nbits w).programWord a = if a = s.pc then tableWord nbits w else s.programWord a :=
  s.programWord_placeWord _ _ _

theorem State.fetchWord_withFetchWord (s : State) (nbits w : Nat) :
    (s.withFetchWord nbits w).fetchWord = tableWord nbits w :=
  (s.programWord_withFetchWord nbits w s.pc).trans (if_pos rfl)

/-- Settles O16: the step fetches the placed word, and the store reads as before elsewhere. -/
theorem placedWordIsRunNext : Obligations.PlacedWordIsRunNext := by
  intro s t i nbits w hrun hpc hi he
  have hf : (s.withFetchWord nbits w).fetches = true := (State.fetches_iff _).mpr ⟨hrun, hpc⟩
  have hd : decode (s.withFetchWord nbits w).fetchWord = .instr i := by
    rw [s.fetchWord_withFetchWord, decode_tableWord_of_decodeTableWord hi]
  exact ⟨step_of_exec hf hd he, fun a ha => by rw [s.programWord_withFetchWord, if_neg ha]⟩

end Sys2Proof.Machine

end

/-! ## The ALU (41_alu.md R80 to R88)

An ALU word is decoded by its opcode field alone, and its meaning is one write of the multiplexer. What is left of a
statement is the byte that is written, as a number or bit by bit. -/

section

namespace Sys2Proof.Machine

/-! ### The words of an opcode -/

/-- A word of opcode `op` decodes to the instruction its fields read as, once the opcode is known. -/
theorem decode_of_and_opcodeMask {w : Word} {i : Instr} (op : Fin 16) (hw : w &&& 0xF000#16 = registerForm op 0 0 0)
    (hread : (decodeFields w).opcode = op → i.ReadFrom (decodeFields w)) : decode w = .instr i :=
  (dispatchOpcode_eq_instr_iff _ i).mpr (hread ((opcode_iff_and_opcodeMask w op).mpr hw))

/-! ### The bytes the ALU writes -/

/-- Wraparound of the difference, negative differences included (R81). -/
theorem sub_toNat_cast (a b : Byte) : ((a - b).toNat : Int) = ((a.toNat : Int) - (b.toNat : Int)) % 256 := by
  have hb := b.isLt
  rw [BitVec.toNat_sub]
  omega

/-- A byte divided is no greater, so nothing is cut off (R82, R88, D1). -/
theorem ofNat_div_toNat (v : Byte) (n : Nat) : (BitVec.ofNat 8 (v.toNat / n)).toNat = v.toNat / n := by
  have hle : v.toNat / n ≤ v.toNat := Nat.div_le_self _ _
  rw [BitVec.toNat_ofNat, Nat.mod_eq_of_lt (hle.trans_lt v.isLt)]

theorem quotient_toNat (a b : Byte) : (quotient a b).toNat = a.toNat / b.toNat :=
  ofNat_div_toNat a b.toNat

/-- LSH's byte at both settings of `SHIFT_GE8` (R87, D2). -/
theorem shiftLeft_toNat (setting : ShiftGe8) (v n : Byte) :
    (shiftLeft setting v n).toNat =
      if n.toNat < 8 then v.toNat * 2 ^ n.toNat % 256
      else if setting = .zero then 0
      else v.toNat * 2 ^ (n.toNat % 8) % 256 := by
  unfold shiftLeft
  split
  · exact BitVec.toNat_ofNat _ _
  · cases setting with
    | zero => rfl
    | mod8 => exact BitVec.toNat_ofNat _ _

/-- RSH's byte at both settings of `SHIFT_GE8` (R88, D2). -/
theorem shiftRight_toNat (setting : ShiftGe8) (v n : Byte) :
    (shiftRight setting v n).toNat =
      if n.toNat < 8 then v.toNat / 2 ^ n.toNat
      else if setting = .zero then 0
      else v.toNat / 2 ^ (n.toNat % 8) := by
  unfold shiftRight
  split
  · exact ofNat_div_toNat v _
  · cases setting with
    | zero => rfl
    | mod8 => exact ofNat_div_toNat v _

/-! ### DIV by its divisor -/

theorem exec_div_of_ne_zero {r3 : RegIdx} {s : State} (h : s.readReg r3 ≠ 0#8) (r1 r2 : RegIdx) :
    exec (.div r1 r2 r3) s = .next (writeBack r1 (quotient (s.readReg r2) (s.readReg r3)) s) := by
  rcases exec_div_cases r1 r2 r3 s with ⟨hzero, -⟩ | ⟨-, e⟩
  · exact absurd hzero h
  · exact e

theorem exec_div_of_eq_zero {r3 : RegIdx} {s : State} (h : s.readReg r3 = 0#8) (r1 r2 : RegIdx) :
    exec (.div r1 r2 r3) s = .next (s.raiseFault .divideByZero (encode (.div r1 r2 r3)) r3.val) := by
  rcases exec_div_cases r1 r2 r3 s with ⟨-, e⟩ | ⟨hne, -⟩
  · exact e
  · exact absurd h hne

/-! ### The obligations -/

/-- Settles O35: the sum of two bytes is taken modulo 256. -/
theorem addWrapsModulo256 : Obligations.AddWrapsModulo256 :=
  ⟨fun _ hw => decode_of_and_opcodeMask 0x0 hw fun hop => ⟨hop, rfl, rfl, rfl⟩,
    fun r1 r2 r3 s => ⟨_, _, exec_add r1 r2 r3 s, BitVec.toNat_add _ _, writesRegisterOnly_writeBack r1 _ s⟩⟩

/-- Settles O36: the difference of two bytes is taken modulo 256, as an integer. -/
theorem subWrapsModulo256 : Obligations.SubWrapsModulo256 :=
  ⟨fun _ hw => decode_of_and_opcodeMask 0x1 hw fun hop => ⟨hop, rfl, rfl, rfl⟩,
    fun r1 r2 r3 s => ⟨_, _, exec_sub r1 r2 r3 s, sub_toNat_cast _ _, writesRegisterOnly_writeBack r1 _ s⟩⟩

/-- Settles O37: DIV writes its quotient or raises its fault, by its divisor. -/
theorem divTruncatesOrFaults : Obligations.DivTruncatesOrFaults := by
  refine ⟨fun _ hw => ?_, fun r1 r2 r3 s hne => ?_, fun r1 r2 r3 s hzero => ?_⟩
  · exact decode_of_and_opcodeMask 0x2 hw fun hop => ⟨hop, rfl, rfl, rfl⟩
  · exact ⟨_, _, exec_div_of_ne_zero hne r1 r2, quotient_toNat _ _, writesRegisterOnly_writeBack r1 _ s⟩
  · exact ⟨_, exec_div_of_eq_zero hzero r1 r2, faultsWith_raiseFault s .divideByZero _ r3.val⟩

/-- Settles O38. -/
theorem andIsBitwise : Obligations.AndIsBitwise :=
  ⟨fun _ hw => decode_of_and_opcodeMask 0x3 hw fun hop => ⟨hop, rfl, rfl, rfl⟩,
    fun r1 r2 r3 s => ⟨_, _, exec_and r1 r2 r3 s, fun _ => BitVec.getLsbD_and, writesRegisterOnly_writeBack r1 _ s⟩⟩

/-- Settles O39. -/
theorem orrIsBitwise : Obligations.OrrIsBitwise :=
  ⟨fun _ hw => decode_of_and_opcodeMask 0x4 hw fun hop => ⟨hop, rfl, rfl, rfl⟩,
    fun r1 r2 r3 s => ⟨_, _, exec_orr r1 r2 r3 s, fun _ => BitVec.getLsbD_or, writesRegisterOnly_writeBack r1 _ s⟩⟩

/-- Settles O40: the exclusive or of two bits says that they differ. -/
theorem xorIsBitwise : Obligations.XorIsBitwise :=
  ⟨fun _ hw => decode_of_and_opcodeMask 0x5 hw fun hop => ⟨hop, rfl, rfl, rfl⟩,
    fun r1 r2 r3 s => ⟨_, _, exec_xor r1 r2 r3 s, fun _ => BitVec.getLsbD_xor, writesRegisterOnly_writeBack r1 _ s⟩⟩

/-- Settles O41: the words of NOT leave `r3` free, and the complement of a byte is its distance from 255. -/
theorem notIsComplement : Obligations.NotIsComplement :=
  ⟨fun _ hw => decode_of_and_opcodeMask 0x6 hw fun hop => ⟨hop, rfl, rfl⟩,
    fun r1 r2 s => ⟨_, _, exec_not r1 r2 s, BitVec.toNat_not, writesRegisterOnly_writeBack r1 _ s⟩⟩

/-- Settles O42. -/
theorem lshShiftsLeft : Obligations.LshShiftsLeft :=
  ⟨fun _ hw => decode_of_and_opcodeMask 0x7 hw fun hop => ⟨hop, rfl, rfl, rfl⟩,
    fun r1 r2 r3 s => ⟨_, _, exec_lsh r1 r2 r3 s, shiftLeft_toNat _ _ _, writesRegisterOnly_writeBack r1 _ s⟩⟩

/-- Settles O43. -/
theorem rshShiftsRight : Obligations.RshShiftsRight :=
  ⟨fun _ hw => decode_of_and_opcodeMask 0x8 hw fun hop => ⟨hop, rfl, rfl, rfl⟩,
    fun r1 r2 r3 s => ⟨_, _, exec_rsh r1 r2 r3 s, shiftRight_toNat _ _ _, writesRegisterOnly_writeBack r1 _ s⟩⟩

end Sys2Proof.Machine

end

/-! ## The control family (42_control.md R89 to R93)

RET and BIR have one equation for each of their cases. `State.TakesBir` is the condition under which a BIR branches; a tick
pushes exactly when it fetches such a BIR, pops exactly when it fetches a RET with an entry to pop, and otherwise keeps the
call stack, so the depth of the stack counts the pushes and the pops of a run. -/

section

namespace Sys2Proof.Machine

/-! ### RET, case by case -/

theorem exec_ret_of_empty {s : State} (hempty : s.stack = []) : exec .ret s = .next s.advance := by
  simpa [hempty] using exec_ret_cases s

theorem exec_ret_of_push {s : State} {rest : List Addr12} {a : Addr12} (hstack : s.stack = rest ++ [a]) :
    exec .ret s = .next (s.dropTop.setPc a.toNat) := by
  simpa [hstack] using exec_ret_cases s

/-! ### BIR, case by case -/

/-- A BIR to `a` branches: the flag is set, the stack has room (D4), and the setting of `BIR_TAKEN_NEXT` gives an address to
go to (D19). -/
structure State.TakesBir (s : State) (a : Addr12) : Prop where
  flag : s.flag = true
  room : s.config.callStackDepth ≠ some s.stack.length
  target : s.config.birTakenNext = .target ∨ a ≠ 0#12

/-- The address a BIR that branches to `a` goes to (R72, D3). -/
def State.birNext (s : State) (a : Addr12) : Nat :=
  if s.config.birTakenNext = .target then a.toNat else a.toNat - 1

theorem State.stackFull_eq_false_iff (s : State) :
    s.stackFull = false ↔ s.config.callStackDepth ≠ some s.stack.length := by
  rw [← Bool.not_eq_true, s.stackFull_iff]

theorem exec_bir_of_clear {s : State} (hflag : s.flag = false) (a : Addr12) : exec (.bir a) s = .next s := by
  simpa [hflag] using exec_bir_cases a s

theorem exec_bir_of_full {s : State} (hflag : s.flag = true) (hfull : s.stackFull = true) (a : Addr12) :
    exec (.bir a) s = .next (s.raiseFault .callStackOverflow (encode (.bir a)) a.toNat) := by
  simpa [hflag, hfull] using exec_bir_cases a s

theorem exec_bir_zero_of_targetMinus1 {s : State} (hflag : s.flag = true) (hroom : s.stackFull = false)
    (hnext : s.config.birTakenNext = .targetMinus1) :
    exec (.bir 0#12) s = .next (s.raiseFault .pcUnderflow (encode (.bir 0#12)) 0) := by
  simpa [hflag, hroom, hnext] using exec_bir_cases 0#12 s

/-- A BIR that branches, at both settings of `BIR_TAKEN_NEXT` (R90). -/
theorem State.TakesBir.exec_eq {s : State} {a : Addr12} (h : s.TakesBir a) :
    exec (.bir a) s = .next (branchTo a (s.birNext a) s) := by
  have hroom := s.stackFull_eq_false_iff.mpr h.room
  rcases hnext : s.config.birTakenNext with _ | _
  · simpa [State.birNext, hnext] using exec_bir_of_target a h.flag h.room hnext
  · have hne : a ≠ 0#12 := h.target.resolve_left (by simp [hnext])
    simpa [State.birNext, h.flag, hroom, hnext, hne] using exec_bir_cases a s

/-- A BIR that does not branch spins or faults, and pushes nothing. -/
theorem exec_bir_stack_of_not_takesBir {s : State} {a : Addr12} (h : ¬ s.TakesBir a) :
    ∃ t : State, exec (.bir a) s = .next t ∧ t.stack = s.stack := by
  rcases exec_bir_cases a s with
    ⟨-, e⟩ | ⟨-, -, e⟩ | ⟨hflag, hroom, hnext, -⟩ | ⟨-, -, -, -, e⟩ | ⟨hflag, hroom, -, hne, -⟩
  · exact ⟨s, e, rfl⟩
  · exact ⟨_, e, rfl⟩
  · exact absurd ⟨hflag, s.stackFull_eq_false_iff.mp hroom, .inl hnext⟩ h
  · exact ⟨_, e, rfl⟩
  · exact absurd ⟨hflag, s.stackFull_eq_false_iff.mp hroom, .inr hne⟩ h

/-! ### The ticks that push and the ticks that pop -/

theorem State.popsNow_iff (s : State) :
    s.popsNow = true ↔ s.fetches = true ∧ decode s.fetchWord = .instr .ret ∧ s.stack ≠ [] := by
  simp [State.popsNow, and_assoc]

/-- The condition as the test that a tick makes of it. -/
theorem State.takesBir_iff (s : State) (a : Addr12) :
    s.TakesBir a ↔
      (s.flag && !s.stackFull && !(s.config.birTakenNext == .targetMinus1 && a == 0#12)) = true := by
  have htarget : (s.config.birTakenNext = .target ∨ a ≠ 0#12) ↔
      (s.config.birTakenNext == .targetMinus1 && a == 0#12) = false := by
    cases s.config.birTakenNext <;> simp
  simp only [Bool.and_eq_true, Bool.not_eq_true', s.stackFull_eq_false_iff, ← htarget]
  exact ⟨fun h => ⟨⟨h.flag, h.room⟩, h.target⟩, fun ⟨⟨hflag, hroom⟩, htarget⟩ => ⟨hflag, hroom, htarget⟩⟩

theorem State.pushesNow_iff (s : State) :
    s.pushesNow = true ↔ s.fetches = true ∧ ∃ a : Addr12, decode s.fetchWord = .instr (.bir a) ∧ s.TakesBir a := by
  unfold State.pushesNow
  rw [Bool.and_eq_true]
  refine and_congr_right fun _ => ?_
  split
  · next b hd =>
    simp only [hd, Decoded.instr.injEq, Instr.bir.injEq, exists_eq_left', s.takesBir_iff]
  · next hno =>
    simp only [Bool.false_eq_true, false_iff]
    rintro ⟨a, hd, -⟩
    exact hno a hd

/-- A RET is no BIR. -/
theorem State.pushesNow_eq_false_of_popsNow {s : State} (h : s.popsNow = true) : s.pushesNow = false := by
  obtain ⟨-, hret, -⟩ := s.popsNow_iff.mp h
  refine Bool.eq_false_iff.mpr fun hpush => ?_
  obtain ⟨-, a, hbir, -⟩ := s.pushesNow_iff.mp hpush
  exact nomatch hret.symm.trans hbir

theorem tick_stack_of_popsNow {s : State} (h : s.popsNow = true) : ∃ a : Addr12, s.stack = (tick s).stack ++ [a] := by
  obtain ⟨hf, hd, hne⟩ := s.popsNow_iff.mp h
  obtain ⟨rest, a, hstack⟩ := List.eq_nil_or_concat' s.stack |>.resolve_left hne
  exact ⟨a, by rw [(tick_ret_of_push hf hd hstack).2, hstack]⟩

theorem tick_stack_of_pushesNow {s : State} (h : s.pushesNow = true) :
    ∃ a : Addr12, (tick s).stack = s.stack ++ [a] := by
  obtain ⟨hf, a, hd, htakes⟩ := s.pushesNow_iff.mp h
  exact ⟨a, by rw [tick_of_exec hf hd htakes.exec_eq, State.finishTick_stack, branchTo_stack]⟩

/-- No other tick touches the call stack (R29). -/
theorem tick_stack_of_neither {s : State} (hpop : s.popsNow = false) (hpush : s.pushesNow = false) :
    (tick s).stack = s.stack := by
  by_contra hne
  obtain ⟨hf, ⟨hd, a, hstack⟩ | ⟨a, hd, -, -⟩⟩ := stackChangesOnlyByBirAndRet s hne
  · have hpop' : s.popsNow = true := s.popsNow_iff.mpr ⟨hf, hd, by simp [hstack]⟩
    exact nomatch hpop.symm.trans hpop'
  · have hnot : ¬ s.TakesBir a := fun htakes =>
      nomatch hpush.symm.trans (s.pushesNow_iff.mpr ⟨hf, a, hd, htakes⟩)
    obtain ⟨t, he, hstack⟩ := exec_bir_stack_of_not_takesBir hnot
    exact hne (by rw [tick_of_exec hf hd he, State.finishTick_stack, hstack])

/-- One tick of the conservation law. -/
theorem tick_stack_length (s : State) :
    (tick s).stack.length + (if s.popsNow then 1 else 0) = s.stack.length + (if s.pushesNow then 1 else 0) := by
  rcases hpop : s.popsNow with _ | _
  · rcases hpush : s.pushesNow with _ | _
    · simp [tick_stack_of_neither hpop hpush]
    · obtain ⟨a, hstack⟩ := tick_stack_of_pushesNow hpush
      simp [hstack]
  · obtain ⟨a, hstack⟩ := tick_stack_of_popsNow hpop
    simp [State.pushesNow_eq_false_of_popsNow hpop, hstack]

/-! ### The obligations -/

/-- Settles O33, by induction on the number of ticks: the law holds of each tick. -/
theorem stackDepthCountsBirsAndRets : Obligations.StackDepthCountsBirsAndRets := by
  intro s k
  induction k generalizing s with
  | zero => rfl
  | succ k ih =>
    have hrest := ih (tick s)
    have hfirst := tick_stack_length s
    rw [ticks_succ, poppingRets, takenBirs]
    omega

/-- Settles O44: RET by its stack, and the termination check on the popped pc. -/
theorem retPopsIntoPc : Obligations.RetPopsIntoPc := by
  refine ⟨fun _ hw => ?_, fun s rest a hstack => ?_, fun s hempty => ?_, fun s rest a hf hd hstack hcap => ?_⟩
  · exact decode_of_and_opcodeMask 0x9 hw id
  · refine ⟨_, exec_ret_of_push hstack, rfl, by simp [hstack], fun _ => rfl, fun _ => rfl, ?_⟩
    exact ⟨rfl, rfl, rfl, rfl, rfl⟩
  · refine ⟨_, exec_ret_of_empty hempty, rfl, hempty, fun _ => rfl, fun _ => rfl, ?_⟩
    exact ⟨rfl, rfl, rfl, rfl, rfl⟩
  · have hend : (s.dropTop.setPc a.toNat).finishTick = (s.dropTop.setPc a.toNat).setStatus .terminated :=
      State.finishTick_of_le (s.fetches_iff.mp hf).1 hcap
    exact ⟨_, (step_of_exec hf hd (exec_ret_of_push hstack)).trans (congrArg _ hend), rfl, rfl⟩

/-- Settles O45: a BIR that branches pushes and goes, one with the flag clear spins. -/
theorem birBranchesAndPushes : Obligations.BirBranchesAndPushes := by
  refine ⟨fun _ hw => ?_, fun a s hflag hroom htarget => ?_, fun a s hflag => exec_bir_of_clear hflag a⟩
  · exact decode_of_and_opcodeMask 0xA hw fun hop => ⟨hop, rfl⟩
  · refine ⟨_, State.TakesBir.exec_eq ⟨hflag, hroom, htarget⟩, rfl, rfl, fun _ => rfl, fun _ => rfl, ?_⟩
    exact ⟨rfl, rfl, rfl, rfl, rfl⟩

/-- Settles O46: the two faults of a taken BIR, the overflow whatever the target and the setting. -/
theorem birOverflowThenUnderflow : Obligations.BirOverflowThenUnderflow := by
  refine ⟨fun a s hflag hfull => ?_, fun s hflag hroom hnext => ?_⟩
  · exact ⟨_, exec_bir_of_full hflag (s.stackFull_iff.mpr hfull) a, faultsWith_raiseFault s .callStackOverflow _ _⟩
  · exact ⟨_, exec_bir_zero_of_targetMinus1 hflag (s.stackFull_eq_false_iff.mpr hroom) hnext,
      faultsWith_raiseFault s .pcUnderflow (encode (.bir 0#12)) 0⟩

/-- Settles O47: RET pops the entry the BIR pushed. -/
theorem retReentersBranchTarget : Obligations.RetReentersBranchTarget := by
  intro a s t u hflag hroom htarget ht hu
  have hbir := State.TakesBir.exec_eq ⟨hflag, hroom, htarget⟩
  obtain rfl : t = branchTo a (s.birNext a) s := Host.Outcome.next.inj (ht.symm.trans hbir)
  have hstack : u.stack = s.stack ++ [a] := hu
  exact ⟨_, exec_ret_of_push hstack, rfl, by simp [hstack]⟩

end Sys2Proof.Machine

end

/-! ## The memory operations (43_memory_ops.md R95 to R97)

LDM is one write of the multiplexer, STR one store to the active page. STR and then LDM comes down to what one byte of a page
reads after a store to the active page: the stored byte at that page and offset, the old byte everywhere else (R41). -/

section

namespace Sys2Proof.Machine

/-! ### A store to the active page -/

theorem State.memoryExcept_memWrite (s : State) (off v : Byte) :
    MemoryExcept (s.activeAddr off) v s (s.memWrite off v) :=
  ⟨(s.byteAt_memWrite off v _).trans (if_pos rfl), fun b hb => (s.byteAt_memWrite off v b).trans (if_neg hb)⟩

/-- The byte at the active page and the stored offset is the stored one. -/
theorem State.dataByte_memWrite_same (s : State) (off v : Byte) :
    (s.memWrite off v).dataByte s.activePage off = v :=
  (s.memoryExcept_memWrite off v).1

/-- The pages do not overlap: a store to the active page keeps every byte of another page (R41). -/
theorem State.dataByte_memWrite_of_ne (s : State) {page : Byte} (hpage : page ≠ s.activePage) (off v o : Byte) :
    (s.memWrite off v).dataByte page o = s.dataByte page o := by
  have haddr : dataAddr page o ≠ s.activeAddr off := fun h => hpage (dataAddr_inj h).1
  exact (s.memoryExcept_memWrite off v).2 _ haddr

/-! ### A load into a register that reads -/

/-- LDM into a register other than register 0: the register reads the active page's byte (R95). -/
theorem exec_ldm_readReg {rd : RegIdx} (hrd : rd ≠ 0) (ro : RegIdx) (s : State) :
    ∃ t : State, exec (.ldm rd ro) s = .next t ∧ t.readReg rd = s.dataByte s.activePage (s.readReg ro) :=
  ⟨_, exec_ldm rd ro s, (writeBack_readReg rd _ s rd).trans (if_pos ⟨rfl, hrd⟩)⟩

/-! ### The obligations -/

/-- Settles O49: LDM writes back the byte of the active page. -/
theorem ldmLoadsFromActivePage : Obligations.LdmLoadsFromActivePage :=
  ⟨fun _ hw => decode_of_and_opcodeMask 0xB hw fun hop => ⟨hop, rfl, rfl⟩,
    fun r1 r2 s => ⟨_, exec_ldm r1 r2 s, writesRegisterOnly_writeBack r1 _ s⟩⟩

/-- Settles O50: the only store of STR is to the active page, after the step of pc. -/
theorem strStoresOneByte : Obligations.StrStoresOneByte := by
  refine ⟨fun _ hw => ?_, fun r1 r2 s => ?_⟩
  · exact decode_of_and_opcodeMask 0xC hw fun hop => ⟨hop, rfl, rfl⟩
  · refine ⟨_, exec_str r1 r2 s, s.advance.memoryExcept_memWrite _ _, rfl, rfl, fun _ => rfl, ?_⟩
    exact ⟨rfl, rfl, rfl, rfl, rfl⟩

/-- Settles O51: the load reads the state the STR left, at the page of the STR or at the one SPG selects after it. -/
theorem storeThenLoad : Obligations.StoreThenLoad := by
  intro ro rv rd rp s t hstr hrd
  have ht : t = s.advance.memWrite (s.readReg ro) (s.readReg rv) :=
    Host.Outcome.next.inj (hstr.symm.trans (exec_str ro rv s))
  refine ⟨?_, fun hpage => ?_⟩
  · obtain ⟨u, hldm, hread⟩ := exec_ldm_readReg hrd ro t
    refine ⟨u, hldm, hread.trans ?_⟩
    subst ht
    exact s.advance.dataByte_memWrite_same _ _
  · obtain ⟨v, hldm, hread⟩ := exec_ldm_readReg hrd ro (t.advance.setActivePage (t.readReg rp))
    refine ⟨_, v, exec_spg rp t, hldm, hread.trans ?_⟩
    subst ht
    exact s.advance.dataByte_memWrite_of_ne hpage _ _ _

end Sys2Proof.Machine

end

/-! ## The immediate operation (44_immediate.md R98)

LDI is one write of the multiplexer whose value is the literal byte of its word: its result and its frame, a write to register 0
included, are those of every write-back. -/

section

namespace Sys2Proof.Machine

/-- Settles O52: LDI writes back the low byte of its word. -/
theorem ldiWritesLiteral : Obligations.LdiWritesLiteral := by
  refine ⟨fun _ hw => ?_, fun r1 imm8 s => ?_⟩
  · exact decode_of_and_opcodeMask 0xD hw fun hop => ⟨hop, rfl, rfl⟩
  · exact ⟨_, exec_ldi r1 imm8 s, writesRegisterOnly_writeBack r1 imm8 s⟩

end Sys2Proof.Machine

end

/-! ## The compare operation (45_compare.md R99)

The high byte of a CMP word holds the opcode and the mode field, so it alone decides between one of the six modes and the
fault. The six legal modes share one meaning, `compareInto`, whose flag is the condition of the mode. -/

section

namespace Sys2Proof

/-! ### The words of a mode -/

/-- A high byte of `0xE0 + c` is opcode 0xE with mode field `c` (R54). -/
theorem decodeFields_of_highByte {w : Word} {c : Fin 16} (hw : w.toNat / 256 = 0xE0 + c.val) :
    (decodeFields w).opcode = 0xE ∧ (decodeFields w).r1 = c := by
  simp only [Fin.ext_iff, decodeFields_opcode_val, decodeFields_r1_val, Fin.coe_ofNat_eq_mod]
  omega

/-- The six rows of CMP are read from the same fields. -/
theorem readFrom_cmpInstr_iff (f : Fields) (m : CompareMode) (r2 r3 : RegIdx) :
    (cmpInstr m r2 r3).ReadFrom f ↔ f.opcode = 0xE ∧ f.r1 = m.code ∧ f.r2 = r2 ∧ f.r3 = r3 := by
  cases m <;> rfl

theorem decode_of_legalMode {w : Word} {m : CompareMode} (hw : w.toNat / 256 = 0xE0 + m.code.val) :
    decode w = .instr (cmpInstr m (decodeFields w).r2 (decodeFields w).r3) := by
  obtain ⟨hop, hmode⟩ := decodeFields_of_highByte hw
  exact (dispatchOpcode_eq_instr_iff _ _).mpr ((readFrom_cmpInstr_iff _ m _ _).mpr ⟨hop, hmode, rfl, rfl⟩)

theorem decode_of_illegalMode {w : Word} {c : Fin 16} (hc : 6 ≤ c.val) (hw : w.toNat / 256 = 0xE0 + c.val) :
    decode w = .illegalCompareMode c := by
  obtain ⟨hop, hmode⟩ := decodeFields_of_highByte hw
  exact (dispatchOpcode_eq_illegalCompareMode_iff _ c).mpr ⟨hop, hmode, hc⟩

/-- The obligation's numbering of the modes is that of the mode field. -/
theorem code_val_of_mem_modes : ∀ p ∈ [(CompareMode.eq, 0), (.gt, 1), (.lt, 2), (.ge, 3), (.le, 4), (.ne, 5)],
    p.1.code.val = p.2 := by
  decide

end Sys2Proof

namespace Sys2Proof.Machine

/-! ### The meaning of a mode -/

theorem exec_cmpInstr (m : CompareMode) (r2 r3 : RegIdx) (s : State) :
    exec (cmpInstr m r2 r3) s = .next (compareInto m r2 r3 s) := by
  cases m <;> rfl

/-! ### The obligation -/

/-- Settles O53: a legal mode's words and its one meaning, whose frame holds for all modes alike and whose flag is taken mode
by mode; an illegal mode raises its fault. -/
theorem compareSetsFlagByMode : Obligations.CompareSetsFlagByMode := by
  refine ⟨fun w m n hmem hw => ?_, fun m r2 r3 s => ?_, fun s n hf hlo hhi hw => ?_⟩
  · obtain rfl : m.code.val = n := code_val_of_mem_modes (m, n) hmem
    exact decode_of_legalMode hw
  · refine ⟨_, exec_cmpInstr m r2 r3 s, ?_, rfl, rfl, rfl, rfl, rfl, rfl, fun _ => rfl, fun _ => rfl⟩
    rw [compareInto_flag]
    cases m with
    | eq => exact beq_iff_eq
    | gt | lt | ge | le => exact decide_eq_true_iff
    | ne => exact bne_iff_ne
  · obtain ⟨c, rfl⟩ : ∃ c : Fin 16, c.val = n := ⟨⟨n, Nat.lt_succ_of_le hhi⟩, rfl⟩
    have hd : decode s.fetchWord = .illegalCompareMode c := decode_of_illegalMode hlo hw
    exact ⟨_, step_of_illegalCompareMode hf hd, faultsWith_raiseFault s .illegalCompareMode _ _⟩

end Sys2Proof.Machine

end

/-! ## The page operation (46_page.md R100)

SPG is the step of pc and one write of ActivePage, so its frame is that of the two state operations; register 0 reads 0,
so SPG of it selects page 0. -/

section

namespace Sys2Proof.Machine

/-- Register 0 reads 0, whatever its slot holds (R20). -/
theorem State.readReg_zero (s : State) : s.readReg 0 = 0#8 := rfl

/-- Settles O54: SPG selects the page its register reads as, whatever the low byte of its word. -/
theorem spgSelectsPage : Obligations.SpgSelectsPage := by
  refine ⟨fun _ hw => ?_, fun r1 s => ?_⟩
  · exact decode_of_and_opcodeMask 0xF hw fun hop => ⟨hop, rfl⟩
  · refine ⟨_, exec_spg r1 s, rfl, ?_, rfl, rfl, rfl, rfl, rfl, rfl, fun _ => rfl, fun _ => rfl⟩
    rintro rfl
    exact s.readReg_zero

end Sys2Proof.Machine

end

/-! ## The faults (60_exceptions.md R101 to R104)

`State.FaultCause` lists why executing a decoded word faults. An instruction keeps the run status or has such a cause, and a
cause raises its fault, so a tick that fetches faults exactly with the records of the causes of its word. -/

section

namespace Sys2Proof.Machine

/-! ### The causes of a fault -/

/-- Executing the decoded word in `s` raises a fault of this kind, with this offending value (R101, R102). -/
inductive State.FaultCause (s : State) : Decoded → FaultKind → Nat → Prop where
  /-- A CMP whose mode field is 6..15 (R62). -/
  | illegalMode (m : Fin 16) : s.FaultCause (.illegalCompareMode m) .illegalCompareMode m.val
  /-- A DIV whose divisor register reads 0 (R82). -/
  | zeroDivisor (r1 r2 r3 : RegIdx) (hzero : s.readReg r3 = 0#8) :
      s.FaultCause (.instr (.div r1 r2 r3)) .divideByZero r3.val
  /-- A taken BIR on a full stack, whatever its target (R90, R104). -/
  | fullStack (a : Addr12) (hflag : s.flag = true) (hfull : s.config.callStackDepth = some s.stack.length) :
      s.FaultCause (.instr (.bir a)) .callStackOverflow a.toNat
  /-- A taken BIR 0 under `TargetMinus1`, with room on the stack (R91, D19). -/
  | noWordBeforeTarget (hflag : s.flag = true) (hroom : s.config.callStackDepth ≠ some s.stack.length)
      (hnext : s.config.birTakenNext = .targetMinus1) : s.FaultCause (.instr (.bir 0#12)) .pcUnderflow 0

/-- The instructions that can fault have no don't-care bit (log entry 8). -/
theorem State.FaultCause.encode_eq {s : State} {i : Instr} {kind : FaultKind} {value : Nat} {w : Word}
    (h : s.FaultCause (.instr i) kind value) (hd : decode w = .instr i) : encode i = w := by
  cases h with
  | zeroDivisor => exact encode_div_of_decode hd
  | fullStack | noWordBeforeTarget => exact encode_bir_of_decode hd

/-- An instruction with a cause raises its fault. -/
theorem State.FaultCause.exec_eq {s : State} {i : Instr} {kind : FaultKind} {value : Nat}
    (h : s.FaultCause (.instr i) kind value) : exec i s = .next (s.raiseFault kind (encode i) value) := by
  cases h with
  | zeroDivisor r1 r2 r3 hzero => exact exec_div_of_eq_zero hzero r1 r2
  | fullStack a hflag hfull => exact exec_bir_of_full hflag (s.stackFull_iff.mpr hfull) a
  | noWordBeforeTarget hflag hroom hnext =>
    exact exec_bir_zero_of_targetMinus1 hflag (s.stackFull_eq_false_iff.mpr hroom) hnext

/-- An instruction without a cause keeps the run status. -/
theorem status_eq_or_faultCause_of_exec {s t : State} {i : Instr} (he : exec i s = .next t) :
    t.status = s.status ∨ ∃ (kind : FaultKind) (value : Nat), s.FaultCause (.instr i) kind value := by
  cases i with
  | div r1 r2 r3 =>
    rcases exec_div_cases r1 r2 r3 s with ⟨hzero, -⟩ | ⟨-, e⟩
    · exact .inr ⟨_, _, .zeroDivisor r1 r2 r3 hzero⟩
    · obtain rfl := Host.Outcome.next.inj (he.symm.trans e)
      exact .inl rfl
  | ret =>
    rcases exec_ret_cases s with ⟨-, e⟩ | ⟨a, -, e⟩
    all_goals
      obtain rfl := Host.Outcome.next.inj (he.symm.trans e)
      exact .inl rfl
  | bir a =>
    rcases exec_bir_cases a s with
      ⟨-, e⟩ | ⟨hflag, hfull, -⟩ | ⟨-, -, -, e⟩ | ⟨hflag, hroom, hnext, rfl, -⟩ | ⟨-, -, -, -, e⟩
    case inr.inl => exact .inr ⟨_, _, .fullStack a hflag (s.stackFull_iff.mp hfull)⟩
    case inr.inr.inr.inl => exact .inr ⟨_, _, .noWordBeforeTarget hflag (s.stackFull_eq_false_iff.mp hroom) hnext⟩
    all_goals
      obtain rfl := Host.Outcome.next.inj (he.symm.trans e)
      exact .inl rfl
  | _ =>
    obtain rfl := Host.Outcome.next.inj he
    exact .inl rfl

/-! ### The ticks that fault -/

/-- A word with a cause faults with the record of R102: the address and the word fetched, and the offending value. -/
theorem tick_of_faultCause {s : State} {kind : FaultKind} {value : Nat} (hf : s.fetches = true)
    (h : s.FaultCause (decode s.fetchWord) kind value) : tick s = s.raiseFault kind s.fetchWord value := by
  rcases decode_cases s.fetchWord with ⟨i, hd⟩ | ⟨m, hd⟩
  · rw [hd] at h
    rw [tick_of_exec hf hd h.exec_eq, h.encode_eq hd, State.finishTick_of_halted (by simp)]
  · rw [hd] at h
    cases h
    exact tick_of_step (step_of_illegalCompareMode hf hd)

/-- A tick of a Running core that faults has a cause in the word it fetches. -/
theorem exists_faultCause_of_tick_faulted {s : State} {rec : FaultRecord} (hrun : s.status = .running)
    (h : (tick s).status = .faulted rec) :
    s.fetches = true ∧ ∃ (kind : FaultKind) (value : Nat), s.FaultCause (decode s.fetchWord) kind value := by
  rcases step_cases s with ⟨hf, i, hd, -⟩ | ⟨hf, m, hd, -⟩ | ⟨-, op, hd, -⟩ | ⟨-, e⟩
  · obtain ⟨t, he, -⟩ := exec_effect i s
    rw [tick_of_exec hf hd he] at h
    rcases status_eq_or_faultCause_of_exec he with hst | hcause
    · exact nomatch (hst.trans hrun).symm.trans (State.status_of_finishTick_faulted h)
    · exact ⟨hf, hd ▸ hcause⟩
  · rw [hd]
    exact ⟨hf, _, _, .illegalMode m⟩
  · exact absurd hd (decode_ne_illegalOpcode _ op)
  · rw [tick_of_step e] at h
    exact nomatch hrun.symm.trans (State.status_of_finishTick_faulted h)

/-- A tick that fetches faults exactly with the records of the causes of the word it fetches. -/
theorem tick_faulted_iff {s : State} (hf : s.fetches = true) (rec : FaultRecord) :
    (tick s).status = .faulted rec ↔
      ∃ (kind : FaultKind) (value : Nat), s.FaultCause (decode s.fetchWord) kind value ∧
        rec = ⟨kind, s.pc, s.fetchWord, value⟩ := by
  constructor
  · intro h
    obtain ⟨-, kind, value, hcause⟩ := exists_faultCause_of_tick_faulted (s.fetches_iff.mp hf).1 h
    rw [tick_of_faultCause hf hcause] at h
    exact ⟨kind, value, hcause, (Status.faulted.inj h).symm⟩
  · rintro ⟨kind, value, hcause, rfl⟩
    rw [tick_of_faultCause hf hcause, State.raiseFault_status]

/-! ### The obligations -/

/-- Settles O23: the four listed cases are the four causes of a fault. -/
theorem faultsAreExactlyTheListed : Obligations.FaultsAreExactlyTheListed := by
  intro s rec hf
  rw [tick_faulted_iff hf]
  generalize decode s.fetchWord = d
  constructor
  · rintro ⟨_, _, hcause, rfl⟩
    cases hcause with
    | illegalMode m => exact .inl ⟨m, rfl, rfl⟩
    | zeroDivisor r1 r2 r3 hzero => exact .inr (.inl ⟨r1, r2, r3, rfl, hzero, rfl⟩)
    | fullStack a hflag hfull => exact .inr (.inr (.inl ⟨a, rfl, hflag, hfull, rfl⟩))
    | noWordBeforeTarget hflag hroom hnext => exact .inr (.inr (.inr ⟨rfl, hflag, hroom, hnext, rfl⟩))
  · rintro (⟨m, rfl, rfl⟩ | ⟨r1, r2, r3, rfl, hzero, rfl⟩ | ⟨a, rfl, hflag, hfull, rfl⟩ | ⟨rfl, hflag, hroom, hnext, rfl⟩)
    · exact ⟨_, _, .illegalMode m, rfl⟩
    · exact ⟨_, _, .zeroDivisor r1 r2 r3 hzero, rfl⟩
    · exact ⟨_, _, .fullStack a hflag hfull, rfl⟩
    · exact ⟨_, _, .noWordBeforeTarget hflag hroom hnext, rfl⟩

/-- With the default stack and branch parameters the two causes of BIR cannot arise (D3, D4). -/
theorem State.FaultCause.code_of_default {s : State} {d : Decoded} {kind : FaultKind} {value : Nat}
    (h : s.FaultCause d kind value) (hdepth : s.config.callStackDepth = none)
    (htarget : s.config.birTakenNext = .target) : kind.code = 2 ∨ kind.code = 3 := by
  cases h with
  | illegalMode => exact .inl rfl
  | zeroDivisor => exact .inr rfl
  | fullStack a hflag hfull => exact nomatch hdepth.symm.trans hfull
  | noWordBeforeTarget hflag hroom hnext => exact nomatch htarget.symm.trans hnext

/-- Settles O24: the record of a fault has the kind of its cause. -/
theorem defaultFaultsHaveCodesTwoAndThree : Obligations.DefaultFaultsHaveCodesTwoAndThree := by
  intro s rec hdepth htarget hrun h
  obtain ⟨hf, -⟩ := exists_faultCause_of_tick_faulted hrun h
  obtain ⟨kind, value, hcause, rfl⟩ := (tick_faulted_iff hf rec).mp h
  exact hcause.code_of_default hdepth htarget

end Sys2Proof.Machine

end

/-! ## The frame (60_exceptions.md R112) -/

section

namespace Sys2Proof.Machine

/-! ### One cell: its place and its channels are the bit fields of its offset and its byte -/

theorem pixelOf_row_val (o v : Byte) : (pixelOf o v).row.val = o.toNat / 16 := by
  have := o.isLt
  simp [pixelOf, BitVec.extractLsb, Nat.shiftRight_eq_div_pow]
  omega

theorem pixelOf_col_val (o v : Byte) : (pixelOf o v).col.val = o.toNat % 16 := by
  simp [pixelOf, BitVec.extractLsb]

theorem pixelOf_red_val (o v : Byte) : (pixelOf o v).red.val = v.toNat / 32 := by
  have := v.isLt
  simp [pixelOf, BitVec.extractLsb, Nat.shiftRight_eq_div_pow]
  omega

theorem pixelOf_green_val (o v : Byte) : (pixelOf o v).green.val = v.toNat / 4 % 8 := by
  simp [pixelOf, BitVec.extractLsb, Nat.shiftRight_eq_div_pow]

theorem pixelOf_blue_val (o v : Byte) : (pixelOf o v).blue.val = v.toNat % 4 := by
  simp [pixelOf, BitVec.extractLsb]

/-! ### The cells of the frame -/

theorem frame_length (s : State) : (frame s).length = 256 := by
  simp [frame]

/-- The frame is row-major: cell number `o` shows the byte of page 255 at offset `o` (R112). -/
theorem frame_getElem? (s : State) (o : Byte) :
    (frame s)[o.toNat]? = some (pixelOf o (s.dataByte framePage o)) := by
  rw [frame, List.getElem?_map, List.getElem?_range o.isLt]
  simp

/-- Settles O59: the levels are the channels over 7, 7 and 3 (D20). -/
theorem frameShowsPage255 : Obligations.FrameShowsPage255 := by
  intro s o
  refine ⟨_, frame_getElem? s o, frame_length s, pixelOf_row_val o _, pixelOf_col_val o _, ?_, ?_, ?_⟩
  · rw [Pixel.redLevel, pixelOf_red_val, framePage]
  · rw [Pixel.greenLevel, pixelOf_green_val, framePage]
  · rw [Pixel.blueLevel, pixelOf_blue_val, framePage]

end Sys2Proof.Machine

end

/-! ## A start and the reset input (70_reset_and_hazards.md R118, R121) -/

section

namespace Sys2Proof.Machine

/-! ### The loader fills a store in canonical form -/

/-- Words that fit the store keep its canonical form. -/
theorem wf_fillStore {size base : Nat} {words : List Word} {p : ProgramStore} (hp : ProgramStore.wf size p)
    (hfit : base + words.length ≤ size) : ProgramStore.wf size (fillStore base words p) := by
  induction words generalizing base p with
  | nil => exact hp
  | cons w rest ih =>
    rw [List.length_cons] at hfit
    exact ih (Sparse.wf_write hp (by omega)) (by omega)

/-- The loader's words fit the store: it takes at most `CAPACITY` of them (R38). -/
theorem wf_storeOfWords_of_loadWords {h : HostParams} {capacity : Nat} {bytes : List Byte} {words : List Word}
    (hload : loadWords h capacity bytes = some words) : ProgramStore.wf capacity (storeOfWords words) := by
  have hfit : words.length ≤ capacity := by
    rw [eq_take_of_loadWords hload]
    exact List.length_take_le _ _
  exact wf_fillStore (Sparse.wf_nil capacity) (by omega)

/-- Settles O11: a start is a reset with a program store in canonical form. -/
theorem bootedCoreHasInvariant : Obligations.BootedCoreHasInvariant := by
  intro h c file s hc hboot
  cases file with
  | none => cases hboot
  | some bytes =>
    obtain ⟨words, hload, rfl⟩ := exists_words_of_boot hboot
    exact ⟨inv_resetWith hc (wf_storeOfWords_of_loadWords hload), rfl⟩

/-! ### The reset input -/

/-- Every register reads 0 after reset: register 0 always does, and the slots of the others hold 0. -/
theorem resetWith_readReg (c : Config) (p : ProgramStore) (r : RegIdx) : (State.resetWith c p).readReg r = 0#8 := by
  rw [State.readReg, resetWith_regs_getElem, ite_self]

/-- Settles O8: the reset input is the reset state of the same parameters and program store. -/
theorem resetInputFromAnyState : Obligations.ResetInputFromAnyState := fun s =>
  ⟨rfl, rfl, rfl, rfl, rfl, resetWith_readReg s.config s.programStore, fun _ => rfl, rfl, rfl⟩

end Sys2Proof.Machine

end

/-! ## The listed words (95_test_vectors.md section 2.1) -/

section

namespace Sys2Proof

/-- Settles O6: each word has the used bits of the listed instruction's encoding, and 0xE623 lies among the illegal words. -/
theorem listedWordsDecode : Obligations.ListedWordsDecode := by
  simp only [Obligations.ListedWordsDecode, decode_eq_instr_iff, decode_eq_illegalCompareMode_iff]
  decide

end Sys2Proof

end
